-- ==== Sys2Proof/Word.lean ====
section
/-! DEFINITION. The words of the block and the named sets its registers take values in (`10_state.md` R10). -/

namespace Sys2Proof

/-- A byte: bits 7 (most significant) down to 0 (R8). -/
abbrev Byte := BitVec 8

/-- A pixel: alpha, blue, green, red from the top byte down (R44). -/
abbrev Pixel := BitVec 32

/-- A cycle timestamp or cycle accumulator, `CYCLE_W` = 64 bits, unsigned (R4). -/
abbrev Cycle := BitVec 64

/-- The bus transaction state `bst` (R13). -/
inductive BusState where
  | idle
  | started
  | addressPhase
  | commandPhase
  | dataPhase
  deriving DecidableEq, Repr

/-- The addressing mode `mode` (R19). -/
inductive AddrMode where
  | horizontal
  | page
  deriving DecidableEq, Repr

/-- Which parameter the next command-phase byte is, `pend` (R21). -/
inductive Pending where
  | none
  | contrast
  | memMode
  | skip
  deriving DecidableEq, Repr

/-- A register identifier as `RegWrite` carries it (R74). `REG_DATA` and `REG_STATUS` are OPEN and symbolic (R4), so the two
watched registers are names here and every other register of the CPU is `other` (DESIGN CHOICE, log entry 10). -/
inductive RegId where
  | data
  | status
  | other (id : Nat)
  deriving DecidableEq, Repr

end Sys2Proof
end

