-- ==== Sys2Proof/Config.lean ====
section
/-! DEFINITION. The parameters of `00_scope.md` R4: the sizes the spec fixes, the record of what an implementation fixes, and the
free values, which have no body so that nothing can be proved of them. -/

namespace Sys2Proof

/-- `FB_PAGES` (R4). -/
def fbPages : Nat := 8

/-- `FB_COLS` (R4). -/
def fbCols : Nat := 128

/-- `ROWS` = 8 x `FB_PAGES` (R4). -/
def gridRows : Nat := 64

/-- The number of bytes of the framebuffer space FB (R40). -/
def fbSize : Nat := 1024

/-- `PIXBUF_MIN`, the least length of a frame target in 32-bit elements (R4). -/
def pixbufMin : Nat := 8192

/-- `AUDIO_READ_MIN`, the least length of an audio target in bytes (R4). -/
def audioReadMin : Nat := 2048

/-- `AUDIO_CAP`, the capacity of the audio buffer in bytes (R4, decision D22). -/
def audioCap : Nat := 2048

/-- `SAMPLE_RATE`, sample ticks per second (R4). No rule of the block reads it (R210; log entry 27). -/
def sampleRate : Nat := 32000

/-- `SAMPLE_PERIOD` in cycles for a CPU clock of `fCpu` Hz, `F_CPU` being OPEN (R4, R210; log entry 27). -/
def samplePeriod (fCpu : Nat) : Nat := fCpu / sampleRate

/-- `FRAME_PERIOD` in microseconds as a fraction: numerator and denominator (R4, R210; log entry 27). -/
def framePeriodMicros : Nat × Nat := (1000000, 30)

/-- One entry `(match, mask, nparams)` of `ExtCmds` (R4, R71); `hasParam` is `nparams` = 1. -/
structure ExtCmd where
  pat : Byte
  mask : Byte
  hasParam : Bool
  deriving DecidableEq, Repr

/-- `ResetCfg`: the reset values of the display register file (R4, R36). -/
structure ResetCfg where
  mode : AddrMode
  page : BitVec 3
  col : BitVec 7
  pend : Pending
  contrast : Byte
  on : Bool
  inv : Bool
  segremap : Bool
  scandir : Bool
  round : Bool
  deriving DecidableEq, Repr

/-- What an implementation fixes for a run and the spec leaves OPEN (R4). It stands in the state as data that no step writes
(R34; log entry 4), so a statement over every state holds for every choice of the parameters. -/
structure Config where
  /-- `DEV_ADDR` -/
  devAddr : BitVec 7
  /-- `SR_SENTINEL` -/
  srSentinel : Byte
  /-- `AUDIO_BASE` -/
  audioBase : Byte
  /-- `AUDIO_AMP` -/
  audioAmp : Byte
  /-- `ExtCmds` -/
  extCmds : List ExtCmd
  /-- `ResetCfg` -/
  resetCfg : ResetCfg
  deriving DecidableEq, Repr

/-! ### Values the spec leaves open -/

/-- `SR_SENTINEL` has no default (R4): the reset configuration's value is opaque (log entry 5). -/
opaque Config.openSentinel : Byte

/-- `AUDIO_BASE` is OPEN (R4): opaque (log entry 5). -/
opaque Config.openAudioBase : Byte

/-- `AUDIO_AMP` is OPEN up to `AUDIO_BASE + AUDIO_AMP <= 255` (R4): an opaque number that `Config.standard` brings under that
bound (log entry 5). -/
opaque Config.openAudioAmp : Nat

/-- FREE VALUE: `dr` after `Setup` is unspecified (R17, R36, U1; log entry 2). -/
opaque Config.freeDr : Nat → Byte

/-- FREE VALUE: the cycle total where the spec gives no sum: `now < tlast` (R150, U8) or a sum past 2^64 (U16; log entry 14). -/
opaque Config.freeTot : Nat → Cycle

/-- FREE VALUE: the high-cycle total where the spec gives no sum (R150, U8, U16; log entry 14). -/
opaque Config.freeHigh : Nat → Cycle

/-- FREE VALUE: a sample whose formula exceeds a byte, for which no wrap or saturation is defined (U3; log entry 15). -/
opaque Config.freeSample : Nat → Byte

/-- The reset values of R36 (decisions D24, D26). -/
def ResetCfg.spec : ResetCfg where
  mode := .page
  page := 0
  col := 0
  pend := .none
  contrast := 0x7F
  on := false
  inv := false
  segremap := false
  scandir := false
  round := false

/-- The configuration of the reset state: the defaults of R4 where it gives one, opaque values where it gives none (log entries
3, 5 and 6). -/
def Config.standard : Config where
  devAddr := 0x3C
  srSentinel := Config.openSentinel
  audioBase := Config.openAudioBase
  audioAmp := BitVec.ofNat 8 (Config.openAudioAmp % (256 - Config.openAudioBase.toNat))
  extCmds := []
  resetCfg := ResetCfg.spec

end Sys2Proof
end

