-- ==== Sys2Proof/Syntax.lean ====
section
/-! DEFINITION. The instructions: one constructor per row of `spec/opcode_table.json`. The first group are the bytes a transaction
commits (R60, byte level), the second the events (event level), the third the pseudo-instructions of the script (R76). -/

namespace Sys2Proof

/-- The rows of the opcode table. -/
inductive Instr where
  -- bytes committed in Started and in AddressPhase
  /-- ADDR: bits 7:1 and bit 0 of the byte (R62). -/
  | addr (addr : BitVec 7) (rw : Bool)
  /-- CTRL_CMD (R63). -/
  | ctrlCmd
  /-- CTRL_DATA (R63). -/
  | ctrlData
  -- bytes committed in CommandPhase
  /-- SETLOWCOL n (R102). -/
  | setLowCol (n : BitVec 4)
  /-- SETHIGHCOL n (R103). -/
  | setHighCol (n : BitVec 4)
  /-- SETMEMMODE, first byte (R104). -/
  | setMemMode
  /-- PARAM_MEMMODE v (R105). -/
  | paramMemMode (v : Byte)
  /-- SETCONTRAST, first byte (R106). -/
  | setContrast
  /-- PARAM_CONTRAST v (R107). -/
  | paramContrast (v : Byte)
  /-- SEGREMAP0 (R108). -/
  | segRemap0
  /-- SEGREMAP1 (R108). -/
  | segRemap1
  /-- NORMALDISPLAY (R109). -/
  | normalDisplay
  /-- INVERTDISPLAY (R109). -/
  | invertDisplay
  /-- DISPLAYOFF (R110). -/
  | displayOff
  /-- DISPLAYON (R110). -/
  | displayOn
  /-- SETPAGE p (R112). -/
  | setPage (p : BitVec 3)
  /-- COMSCANINC (R111). -/
  | comScanInc
  /-- COMSCANDEC (R111). -/
  | comScanDec
  /-- UNRECOGNISED: a byte that matches no command (R113). -/
  | unrecognised (b : Byte)
  /-- EXTCMD: a byte that matches an entry of `ExtCmds`, and whether that entry has a parameter (R114). -/
  | extCmd (b : Byte) (hasParam : Bool)
  /-- PARAM_SKIP v (R114). -/
  | paramSkip (v : Byte)
  -- bytes committed in DataPhase
  /-- DATA d (R130). -/
  | data (d : Byte)
  -- events
  /-- Setup (R190). -/
  | setup
  /-- Teardown (R178). -/
  | teardown
  /-- SclEdge(level) (R81). -/
  | sclEdge (level : Bool)
  /-- SdaEdge(level) (R84). -/
  | sdaEdge (level : Bool)
  /-- RegWrite(REG_DATA, value) (R90). -/
  | regWriteData (value : Byte)
  /-- RegWrite(REG_STATUS, value) (R91). -/
  | regWriteStatus (value : Byte)
  /-- SetRefreshTiming(roundMode) (R133). -/
  | setRefreshTiming (roundMode : Bool)
  /-- FrameTick(target): the caller's buffer as it stands at the call (R134; log entry 9). -/
  | frameTick (target : List Pixel)
  /-- ToggleEdge(level, now) (R150). -/
  | toggleEdge (level : Bool) (now : Cycle)
  /-- SampleTick (R153). -/
  | sampleTick
  /-- ReadAudio(target): the caller's buffer as it stands at the call (R157; log entry 9). -/
  | readAudio (target : List Byte)
  -- pseudo-instructions of the script (R76)
  /-- START. -/
  | start
  /-- RESTART. -/
  | restart
  /-- STOP. -/
  | stop
  /-- BIT d. -/
  | bit (d : Bool)
  /-- ACK. -/
  | ack
  /-- BYTE v. -/
  | byte (v : Byte)
  /-- TXN b1 ... bk. -/
  | txn (bs : List Byte)
  /-- CMDS c1 ... ck. -/
  | cmds (cs : List Byte)
  /-- DATA d1 ... dk of the script, the table's DATA_TXN. -/
  | dataTxn (ds : List Byte)
  /-- FAST v. -/
  | fast (v : Byte)
  deriving DecidableEq, Repr

end Sys2Proof
end

