-- ==== Sys2Proof/Decode.lean ====
section
/-! DEFINITION. Decoding and encoding at the levels of R60: bytes in their context, events, and the events a pseudo-instruction
stands for. Then the view of the decoder that the opcode table's numbering asks for. -/

namespace Sys2Proof

/-- One event as the platform delivers it: the alphabet of R5. A `target` is the caller's buffer as it stands at the call (log
entry 9). -/
inductive Event where
  | setup
  | teardown
  | sclEdge (level : Bool)
  | sdaEdge (level : Bool)
  | regWrite (reg : RegId) (value : Byte)
  | setRefreshTiming (roundMode : Bool)
  | frameTick (target : List Pixel)
  | toggleEdge (level : Bool) (now : Cycle)
  | sampleTick
  | readAudio (target : List Byte)
  deriving DecidableEq, Repr

/-- Why the decoder gives no instruction. -/
inductive Reject where
  /-- A byte committed in Idle: no transaction, nothing happens (R88). -/
  | noTransaction
  /-- A control byte for which `CtrlSel` is Invalid: the cause BadControl of a desync (R63, R172). -/
  | badControl
  /-- A `RegWrite` to a register other than the two watched ones: nothing happens (R74, R91). -/
  | unwatchedRegister
  /-- A list of events: the script's spelling of a pseudo-instruction is not decoded (R75). -/
  | scriptText
  deriving DecidableEq, Repr

/-! ### Tables of commands -/

/-- The first entry of `ExtCmds` that a byte matches: `b & mask = match` (R65, R71, R101). -/
def findExt (ext : List ExtCmd) (b : Byte) : Option ExtCmd :=
  ext.find? fun e => b &&& e.mask == e.pat

/-- The command opcode table of R65 as data (D9): the match and the mask of each row. -/
def commandTable : List (Byte × Byte) :=
  [(0x00, 0xF0), (0x10, 0xF0), (0x20, 0xFF), (0x81, 0xFF), (0xA0, 0xFE), (0xA6, 0xFE), (0xAE, 0xFE), (0xC0, 0xF7), (0xB0, 0xF8)]

/-- Byte `b` selects a row iff `b & mask = match` (R65). -/
def inCommandTable (b : Byte) : Bool :=
  commandTable.any fun r => b &&& r.2 == r.1

/-! ### Fields -/

/-- Bits 3:0 of an opcode of format NIB (R64). -/
def lowField4 (b : Byte) : BitVec 4 := b.extractLsb' 0 4

/-- Bits 2:0 of an opcode of format PG (R64). -/
def lowField3 (b : Byte) : BitVec 3 := b.extractLsb' 0 3

/-- Bits 7:1 of an address byte (R62). -/
def addrField (b : Byte) : BitVec 7 := b.extractLsb' 1 7

/-- `AddrMatch` (R4, R62): the seven address bits equal `DEV_ADDR`; bit 0 takes no part (decision D3, log entry 12). -/
def addrMatch (cfg : Config) (addr : BitVec 7) : Bool := addr == cfg.devAddr

/-! ### Decoding -/

/-- A byte committed in AddressPhase, `CtrlSel` of R63: 0x00 selects commands, 0x40 data, all else is Invalid (decision D4, log
entry 11). -/
def decodeControl (b : Byte) : Except Reject Instr :=
  if b = 0x00 then .ok .ctrlCmd
  else if b = 0x40 then .ok .ctrlData
  else .error .badControl

/-- A byte committed in CommandPhase with `pend` = None, in the order of R101. -/
def decodeOpcode (ext : List ExtCmd) (b : Byte) : Instr :=
  if b &&& 0xF0 = 0x00 then .setLowCol (lowField4 b)
  else if b &&& 0xF0 = 0x10 then .setHighCol (lowField4 b)
  else if b = 0x20 then .setMemMode
  else if b = 0x81 then .setContrast
  else if b &&& 0xFE = 0xA0 then (if b.getLsbD 0 then .segRemap1 else .segRemap0)
  else if b &&& 0xFE = 0xA6 then (if b.getLsbD 0 then .invertDisplay else .normalDisplay)
  else if b &&& 0xFE = 0xAE then (if b.getLsbD 0 then .displayOn else .displayOff)
  else if b &&& 0xF8 = 0xB0 then .setPage (lowField3 b)
  else if b &&& 0xF7 = 0xC0 then (if b.getLsbD 3 then .comScanDec else .comScanInc)
  else match findExt ext b with
    | some e => .extCmd b e.hasParam
    | none => .unrecognised b

/-- A byte committed in CommandPhase: a parameter if one is pending, else an opcode (R100). -/
def decodeCommand (ext : List ExtCmd) (pend : Pending) (b : Byte) : Instr :=
  match pend with
  | .contrast => .paramContrast b
  | .memMode => .paramMemMode b
  | .skip => .paramSkip b
  | .none => decodeOpcode ext b

/-- A committed byte in its context (R88, R100): total on every byte, rejecting by name. -/
def decodeByte (ext : List ExtCmd) (bst : BusState) (pend : Pending) (b : Byte) : Except Reject Instr :=
  match bst with
  | .idle => .error .noTransaction
  | .started => .ok (.addr (addrField b) (b.getLsbD 0))
  | .addressPhase => decodeControl b
  | .commandPhase => .ok (decodeCommand ext pend b)
  | .dataPhase => .ok (.data b)

/-- An event names its row; `RegWrite` names one row for each watched register (R5, R74). -/
def decodeEvent : Event → Except Reject Instr
  | .setup => .ok .setup
  | .teardown => .ok .teardown
  | .sclEdge l => .ok (.sclEdge l)
  | .sdaEdge l => .ok (.sdaEdge l)
  | .regWrite .data v => .ok (.regWriteData v)
  | .regWrite .status v => .ok (.regWriteStatus v)
  | .regWrite (.other _) _ => .error .unwatchedRegister
  | .setRefreshTiming r => .ok (.setRefreshTiming r)
  | .frameTick t => .ok (.frameTick t)
  | .toggleEdge l now => .ok (.toggleEdge l now)
  | .sampleTick => .ok .sampleTick
  | .readAudio t => .ok (.readAudio t)

/-! ### The script of R76 as events -/

/-- START: `SDA 0; SCL 0`. -/
def startEvents : List Event := [.sdaEdge false, .sclEdge false]

/-- RESTART: `SDA 1; SCL 1; SDA 0; SCL 0`. -/
def restartEvents : List Event := [.sdaEdge true, .sclEdge true, .sdaEdge false, .sclEdge false]

/-- STOP: `SDA 0; SCL 1; SDA 1`. -/
def stopEvents : List Event := [.sdaEdge false, .sclEdge true, .sdaEdge true]

/-- BIT d: `SDA d; SCL 1; SCL 0`. -/
def bitEvents (d : Bool) : List Event := [.sdaEdge d, .sclEdge true, .sclEdge false]

/-- ACK: `SDA 1; SCL 1; SCL 0`. -/
def ackEvents : List Event := [.sdaEdge true, .sclEdge true, .sclEdge false]

/-- BYTE v: the eight bits, most significant first, then ACK. -/
def byteEvents (v : Byte) : List Event :=
  bitEvents (v.getLsbD 7) ++ bitEvents (v.getLsbD 6) ++ bitEvents (v.getLsbD 5) ++ bitEvents (v.getLsbD 4) ++
    bitEvents (v.getLsbD 3) ++ bitEvents (v.getLsbD 2) ++ bitEvents (v.getLsbD 1) ++ bitEvents (v.getLsbD 0) ++ ackEvents

/-- TXN b1 ... bk: `START; BYTE b1; ...; BYTE bk; STOP`. -/
def txnEvents (bs : List Byte) : List Event := startEvents ++ bs.flatMap byteEvents ++ stopEvents

/-- The write address byte `DEV_ADDR << 1` (R76). -/
def addrByte (cfg : Config) : Byte := cfg.devAddr ++ 0#1

/-- CMDS c1 ... ck: `TXN (DEV_ADDR << 1) 0x00 c1 ... ck`. -/
def cmdsEvents (cfg : Config) (cs : List Byte) : List Event := txnEvents (addrByte cfg :: 0x00 :: cs)

/-- DATA d1 ... dk: `TXN (DEV_ADDR << 1) 0x40 d1 ... dk`. -/
def dataEvents (cfg : Config) (ds : List Byte) : List Event := txnEvents (addrByte cfg :: 0x40 :: ds)

/-- FAST v: `REGW DATA, v; REGW STATUS, SR_SENTINEL`. -/
def fastEvents (cfg : Config) (v : Byte) : List Event := [.regWrite .data v, .regWrite .status cfg.srSentinel]

/-! ### Encoding -/

/-- What an instruction is written as: a byte with the context it is committed in, an event, or a list of events (R60). -/
inductive Encoding where
  | byte (bst : BusState) (pend : Pending) (b : Byte)
  | event (e : Event)
  | script (es : List Event)
  deriving DecidableEq, Repr

/-- The encoding of each row, from the formats of R62 to R66 and the numbers of R63 and R65; the events of R5; the expansions of
R76. -/
def encode (cfg : Config) : Instr → Encoding
  | .addr a rw => .byte .started .none (a ++ BitVec.ofBool rw)
  | .ctrlCmd => .byte .addressPhase .none 0x00
  | .ctrlData => .byte .addressPhase .none 0x40
  | .setLowCol n => .byte .commandPhase .none (0x0#4 ++ n)
  | .setHighCol n => .byte .commandPhase .none (0x1#4 ++ n)
  | .setMemMode => .byte .commandPhase .none 0x20
  | .paramMemMode v => .byte .commandPhase .memMode v
  | .setContrast => .byte .commandPhase .none 0x81
  | .paramContrast v => .byte .commandPhase .contrast v
  | .segRemap0 => .byte .commandPhase .none 0xA0
  | .segRemap1 => .byte .commandPhase .none 0xA1
  | .normalDisplay => .byte .commandPhase .none 0xA6
  | .invertDisplay => .byte .commandPhase .none 0xA7
  | .displayOff => .byte .commandPhase .none 0xAE
  | .displayOn => .byte .commandPhase .none 0xAF
  | .setPage p => .byte .commandPhase .none (0b10110#5 ++ p)
  | .comScanInc => .byte .commandPhase .none 0xC0
  | .comScanDec => .byte .commandPhase .none 0xC8
  | .unrecognised b => .byte .commandPhase .none b
  | .extCmd b _ => .byte .commandPhase .none b
  | .paramSkip v => .byte .commandPhase .skip v
  | .data d => .byte .dataPhase .none d
  | .setup => .event .setup
  | .teardown => .event .teardown
  | .sclEdge l => .event (.sclEdge l)
  | .sdaEdge l => .event (.sdaEdge l)
  | .regWriteData v => .event (.regWrite .data v)
  | .regWriteStatus v => .event (.regWrite .status v)
  | .setRefreshTiming r => .event (.setRefreshTiming r)
  | .frameTick t => .event (.frameTick t)
  | .toggleEdge l now => .event (.toggleEdge l now)
  | .sampleTick => .event .sampleTick
  | .readAudio t => .event (.readAudio t)
  | .start => .script startEvents
  | .restart => .script restartEvents
  | .stop => .script stopEvents
  | .bit d => .script (bitEvents d)
  | .ack => .script ackEvents
  | .byte v => .script (byteEvents v)
  | .txn bs => .script (txnEvents bs)
  | .cmds cs => .script (cmdsEvents cfg cs)
  | .dataTxn ds => .script (dataEvents cfg ds)
  | .fast v => .script (fastEvents cfg v)

/-- The decoder on an encoding; the script's spelling has no decoder (R75). -/
def decodeEncoding (ext : List ExtCmd) : Encoding → Except Reject Instr
  | .byte bst pend b => decodeByte ext bst pend b
  | .event e => decodeEvent e
  | .script _ => .error .scriptText

/-! ### The opcode table's numbering -/

/-- The context of the first row of the opcode table, in the table's order, whose fixed bits a byte has: ADDR (for the default
`DEV_ADDR`), then CTRL_CMD and CTRL_DATA, then the commands. A byte alone does not say its context, so one has to be taken (DESIGN
CHOICE, log entry 21). -/
def tableContext (b : Byte) : BusState :=
  if b &&& 0xFE = 0x78 then .started
  else if b = 0x00 then .addressPhase
  else if b = 0x40 then .addressPhase
  else .commandPhase

/-- The instruction read from a table word: one byte, in the context `tableContext` takes, with no parameter pending and no extra
command. -/
def decodeTableWord (nbits w : Nat) : Option Instr :=
  if nbits = 8 then
    match decodeByte [] (tableContext (BitVec.ofNat 8 w)) .none (BitVec.ofNat 8 w) with
    | .ok i => some i
    | .error _ => none
  else none

end Sys2Proof
end

