-- ==== Sys2Proof/Machine/State.lean ====
section
/-! DEFINITION. The state of the block: the components of `10_state.md` R10 in its three sub-blocks, the `ready` gate, and beside
them four fields of the model's own (the parameters, the events not yet delivered, the results given back, the index of the next
free value). -/

namespace Sys2Proof.Machine

/-- What an event gives back to its caller (R213), with the caller's buffer as the call leaves it (log entries 8 and 9). -/
inductive Result where
  /-- The boolean of `FrameTick` and the frame target after the call (R134). -/
  | frame (ok : Bool) (target : List Pixel)
  /-- The boolean of `SetRefreshTiming` (R133). -/
  | timing (ok : Bool)
  /-- The count of `ReadAudio` and the audio target after the call (R157). -/
  | audio (count : Nat) (target : List Byte)
  deriving DecidableEq, Repr

/-- The BUS sub-block (R12 to R17). `cnt` is at most 8 (R15, R37: an invariant of the model). -/
structure Bus where
  scl : Bool
  sda : Bool
  bst : BusState
  cnt : Nat
  acc : Byte
  dr : Byte
  deriving DecidableEq, Repr

/-- The DISPLAY sub-block (R19 to R29). `fb` is the space FB as (address, byte) pairs, address `page * 128 + col` (R40), with what
is not listed reading 0x00 (log entry 17); row `y` of `grid` holds the bit of column `x` at bit `x` (log entry 18). -/
structure Display where
  mode : AddrMode
  page : BitVec 3
  col : BitVec 7
  pend : Pending
  contrast : Byte
  on : Bool
  inv : Bool
  segremap : Bool
  scandir : Bool
  round : Bool
  fb : List Host.Cell
  grid : Vector (BitVec 128) 64
  deriving DecidableEq, Repr

/-- The AUDIO sub-block (R30 to R33); the head of `abuf` is the oldest sample. -/
structure Audio where
  tog : Bool
  tlast : Cycle
  tot : Cycle
  high : Cycle
  abuf : List Byte
  deriving DecidableEq, Repr

/-- The state of the machine. -/
structure State where
  /-- The parameters of R4: no step writes them (log entry 4). -/
  cfg : Config
  /-- The events the platform has yet to deliver, first first (R5, R6; log entry 7). -/
  input : List Event
  /-- What the events so far gave back, oldest first (R213; log entry 8). -/
  results : List Result
  /-- The index of the next free value (log entry 2). -/
  fresh : Nat
  /-- The gate (R11). -/
  ready : Bool
  bus : Bus
  disp : Display
  audio : Audio
  deriving DecidableEq, Repr

/-- Why the machine stops with a fault: never. No event loops, waits or raises a trap (R47, R174, R214), so the type has no
constructor. -/
inductive Fault where
  deriving DecidableEq, Repr

/-- Why a step has no meaning. -/
inductive Refusal where
  /-- Raised by `exec` for an instruction with no meaning yet, by its mnemonic: no arm of `exec` is so (safe). -/
  | notModelled (mnemonic : String)
  deriving DecidableEq, Repr

/-- What a meaning answers. -/
abbrev Answer := Host.Outcome State Fault Refusal

/-! ### Reset -/

/-- The BUS sub-block after `Setup` (R36): `dr` is unspecified there and comes as an argument. -/
def Bus.reset (dr : Byte) : Bus where
  scl := true
  sda := true
  bst := .idle
  cnt := 0
  acc := 0
  dr := dr

/-- The DISPLAY sub-block after `Setup` (R36): its register file is `ResetCfg`, framebuffer and grid are zero. -/
def Display.reset (r : ResetCfg) : Display where
  mode := r.mode
  page := r.page
  col := r.col
  pend := r.pend
  contrast := r.contrast
  on := r.on
  inv := r.inv
  segremap := r.segremap
  scandir := r.scandir
  round := r.round
  fb := []
  grid := Vector.replicate 64 0

/-- The AUDIO sub-block after `Setup` (R36). -/
def Audio.reset : Audio where
  tog := false
  tlast := 0
  tot := 0
  high := 0
  abuf := []

/-- The machine right after reset. `Setup` is the block's only reset (R190), so this is the state right after it, with the values
of R36 (log entries 1 to 6), nothing to deliver and nothing given back. -/
def State.reset : State where
  cfg := Config.standard
  input := []
  results := []
  fresh := 1
  ready := true
  bus := Bus.reset (Config.freeDr 0)
  disp := Display.reset ResetCfg.spec
  audio := Audio.reset

/-! ### Named updates -/

/-! Updates of one field of `Bus`. -/

def Bus.setScl (b : Bus) (x : Bool) : Bus := { b with scl := x }
def Bus.setSda (b : Bus) (x : Bool) : Bus := { b with sda := x }
def Bus.setBst (b : Bus) (x : BusState) : Bus := { b with bst := x }
def Bus.setCnt (b : Bus) (x : Nat) : Bus := { b with cnt := x }
def Bus.setAcc (b : Bus) (x : Byte) : Bus := { b with acc := x }
def Bus.setDr (b : Bus) (x : Byte) : Bus := { b with dr := x }

/-! Updates of one field of `Display`. -/

def Display.setMode (d : Display) (x : AddrMode) : Display := { d with mode := x }
def Display.setPage (d : Display) (x : BitVec 3) : Display := { d with page := x }
def Display.setCol (d : Display) (x : BitVec 7) : Display := { d with col := x }
def Display.setPend (d : Display) (x : Pending) : Display := { d with pend := x }
def Display.setContrast (d : Display) (x : Byte) : Display := { d with contrast := x }
def Display.setOn (d : Display) (x : Bool) : Display := { d with on := x }
def Display.setInv (d : Display) (x : Bool) : Display := { d with inv := x }
def Display.setSegremap (d : Display) (x : Bool) : Display := { d with segremap := x }
def Display.setScandir (d : Display) (x : Bool) : Display := { d with scandir := x }
def Display.setRound (d : Display) (x : Bool) : Display := { d with round := x }
def Display.setFb (d : Display) (x : List Host.Cell) : Display := { d with fb := x }
def Display.setGrid (d : Display) (x : Vector (BitVec 128) 64) : Display := { d with grid := x }

/-! Updates of one field of `Audio`. -/

def Audio.setTog (a : Audio) (x : Bool) : Audio := { a with tog := x }
def Audio.setTlast (a : Audio) (x : Cycle) : Audio := { a with tlast := x }
def Audio.setTot (a : Audio) (x : Cycle) : Audio := { a with tot := x }
def Audio.setHigh (a : Audio) (x : Cycle) : Audio := { a with high := x }
def Audio.setAbuf (a : Audio) (x : List Byte) : Audio := { a with abuf := x }

/-! Updates of one field of `State`. -/

def State.setInput (s : State) (x : List Event) : State := { s with input := x }
def State.setResults (s : State) (x : List Result) : State := { s with results := x }
def State.setFresh (s : State) (x : Nat) : State := { s with fresh := x }
def State.setReady (s : State) (x : Bool) : State := { s with ready := x }
def State.setBus (s : State) (x : Bus) : State := { s with bus := x }
def State.setDisp (s : State) (x : Display) : State := { s with disp := x }
def State.setAudio (s : State) (x : Audio) : State := { s with audio := x }

/-- An event hands a result back to its caller (R213). -/
def State.addResult (s : State) (r : Result) : State := s.setResults (s.results ++ [r])

end Sys2Proof.Machine
end

