-- ==== Sys2Proof/Machine/Operands.lean ====
section
/-! DEFINITION. Operand forms and the exact arithmetic of the block: the bit shifted into the accumulator, the column nibbles, the
addressing-mode parameter, the framebuffer address, the gray level, cycle sums and the sample value. -/

namespace Sys2Proof.Machine

/-- `{acc[6:0], sda}` (R82). -/
def shiftIn (acc : Byte) (level : Bool) : Byte := acc.extractLsb' 0 7 ++ BitVec.ofBool level

/-- `{col[6:4], n}` (R68, R102). -/
def colWithLow (col : BitVec 7) (n : BitVec 4) : BitVec 7 := col.extractLsb' 4 3 ++ n

/-- `{n[2:0], col[3:0]}`: bit 3 of the nibble is dropped (R68, R103; decision D14, log entry 13). -/
def colWithHigh (col : BitVec 7) (n : BitVec 4) : BitVec 7 := n.extractLsb' 0 3 ++ col.extractLsb' 0 4

/-- The mode that `v[1:0]` selects: 0b00 Horizontal, 0b10 Page, the odd values none (R69; decision D13, log entry 13). -/
def memModeOf (v : Byte) : Option AddrMode :=
  if v.extractLsb' 0 2 = 0b00#2 then some .horizontal
  else if v.extractLsb' 0 2 = 0b10#2 then some .page
  else none

/-- The linear address of a strip: `page * 128 + col` (R40). -/
def fbAddress (page : BitVec 3) (col : BitVec 7) : Nat := page.toNat * fbCols + col.toNat

/-- `TRANSPARENT` (R136). -/
def transparent : Pixel := 0x00000000

/-- `L(c)` = 128 + (c >> 1) (R136). -/
def grayLevel (c : Byte) : Byte := 128 + (c >>> 1)

/-- `GRAY(c)`: alpha 0xFF and the level in blue, green and red (R136; log entry 25). -/
def gray (c : Byte) : Pixel := 0xFF#8 ++ grayLevel c ++ grayLevel c ++ grayLevel c

/-- `now - tlast` (R150), which the rules define for `now >= tlast` only (U8). -/
def elapsed (tlast now : Cycle) : Option Nat :=
  if tlast.toNat ≤ now.toNat then some (now.toNat - tlast.toNat) else none

/-- An accumulator plus elapsed cycles, where the spec gives the sum: the interval has a length and the total stays below 2^64
(R150, U8, U16). -/
def cycleSum (a : Cycle) (d : Option Nat) : Option Cycle :=
  match d with
  | some d => if a.toNat + d < 2 ^ 64 then some (BitVec.ofNat 64 (a.toNat + d)) else none
  | none => none

/-- `AUDIO_BASE + floor(high * AUDIO_AMP / tot)`, the product first, in exact arithmetic (R154). -/
def sampleValue (cfg : Config) (high tot : Cycle) : Nat :=
  cfg.audioBase.toNat + high.toNat * cfg.audioAmp.toNat / tot.toNat

end Sys2Proof.Machine
end

