-- ==== Sys2Proof/Machine/Flags.lean ====
section
/-! DEFINITION. The flags of the block. No operation computes a carry, zero or sign (every rule says "Flags written: none"); the
flags are the display's `inv`, `segremap` and `scandir`, which act only where a pixel is shown. -/

namespace Sys2Proof.Machine

/-- The grid row an output row shows: mirrored when `scandir` is set (R137; decision D18, log entry 25). -/
def sourceRow (scandir : Bool) (y : Nat) : Nat := if scandir then 63 - y else y

/-- The grid column an output column shows: mirrored when `segremap` is set (R137; decision D18, log entry 25). -/
def sourceCol (segremap : Bool) (x : Nat) : Nat := if segremap then 127 - x else x

/-- `lit` = grid bit xor `inv` (R135). -/
def litPixel (gridBit inv : Bool) : Bool := xor gridBit inv

end Sys2Proof.Machine
end

