-- ==== Sys2Proof/Machine/Ops.lean ====
section
/-! DEFINITION. The named operations over the state: the framebuffer space, the render grid, the gate, the one exception-like action
(a desync) with the recovery from it (a start), a violated precondition, the flush, the cursor and the renderer. -/

namespace Sys2Proof.Machine

/-! ### The framebuffer space -/

/-- The byte at an address; what is not listed reads 0x00, the reset contents of R36 (log entry 17). -/
def Memory.read (m : List Host.Cell) (a : Nat) : Byte :=
  match m with
  | [] => 0
  | (k, v) :: rest => if k = a then v else Memory.read rest a

/-- Writes one byte and keeps the list canonical: addresses rising, no listed 0x00. -/
def Memory.write (m : List Host.Cell) (a : Nat) (b : Byte) : List Host.Cell :=
  match m with
  | [] => if b = 0 then [] else [(a, b)]
  | (k, v) :: rest =>
    if a < k then (if b = 0 then (k, v) :: rest else (a, b) :: (k, v) :: rest)
    else if a = k then (if b = 0 then rest else (a, b) :: rest)
    else (k, v) :: Memory.write rest a b

/-- The canonical form: addresses strictly rise, every listed address is one of FB's (R40), no listed byte is what an unlisted
address reads as. -/
abbrev Memory.wf (m : List Host.Cell) : Prop :=
  m.Pairwise (fun c c' => c.1 < c'.1) ∧ ∀ c ∈ m, c.1 < fbSize ∧ c.2 ≠ 0

/-- `fb[page][col]` (R8). -/
def fbByte (d : Display) (page col : Nat) : Byte := Memory.read d.fb (page * fbCols + col)

/-! ### The render grid -/

/-- `grid[y][x]` (R8). -/
def gridBit (d : Display) (y x : Nat) : Bool := (d.grid.toList.getD y 0).getLsbD x

/-- The row a flush gives to the grid: row `8 * p + k` takes bit `k` of each strip of page `p`, bit 0 on top (R43, R132; decision
D15, log entry 25). -/
def flushRow (fb : List Host.Cell) (y : Nat) : BitVec 128 :=
  BitVec.ofFnLE fun c : Fin 128 => (Memory.read fb (y / 8 * fbCols + c.val)).getLsbD (y % 8)

/-- The grid a flush makes of a framebuffer, row by row (R132). Irreducible, so that no proof unfolds 8192 bits: the laws of
`Sys2Proof/Laws/Ops.lean` say what it holds. -/
@[irreducible] def flushGrid (fb : List Host.Cell) : Vector (BitVec 128) 64 :=
  Vector.ofFn fun y : Fin 64 => flushRow fb y.val

/-- `Flush()` (R132): the whole grid from the whole framebuffer. -/
def flush (d : Display) : Display := d.setGrid (flushGrid d.fb)

/-! ### Errors, the gate, recovery -/

/-- `Desync()` (R171), the block's only exception-like action: nothing is saved, no mode changes, control goes nowhere (R176). -/
def desync (s : State) : State := s.setBus (s.bus.setBst .idle)

/-- `StartCondition()` (R85), which is also the recovery from every desync (R179). -/
def startCondition (s : State) : State := s.setBus ((s.bus.setBst .started).setCnt 0)

/-- `StopCondition()` (R86; decision D7, log entry 23). -/
def stopCondition (s : State) : State := s.setBus ((s.bus.setBst .idle).setCnt 0)

/-- A PreconditionViolation (R173): no state changes, and an event with a result gives back the false or zero one. -/
def preconditionViolation (falsy : Option Result) (s : State) : State :=
  match falsy with
  | some r => s.addResult r
  | none => s

/-- The gate (R177): with `ready` = 0 an event is inert, else it does what its own rule says. -/
def gate (falsy : Option Result) (ruled : State → State) (s : State) : State :=
  if s.ready then ruled s else preconditionViolation falsy s

/-- What an event the decoder gives no instruction for does: nothing (R74, R91). -/
def rejectedEvent (_r : Reject) (s : State) : State := s

/-! ### The data path -/

/-- The store of R130: the byte replaces the whole strip at the cursor. -/
def storeStrip (b : Byte) (d : Display) : Display := d.setFb (Memory.write d.fb (fbAddress d.page d.col) b)

/-- The cursor's advance of R130, with the flush at page wraparound under round-refresh (C2, D16). -/
def advanceCursor (d : Display) : Display :=
  if d.col.toNat < 127 then d.setCol (d.col + 1)
  else
    match d.mode with
    | .page => d.setCol 0
    | .horizontal =>
      if d.page.toNat < 7 then (d.setCol 0).setPage (d.page + 1)
      else if d.round then flush ((d.setCol 0).setPage 0)
      else (d.setCol 0).setPage 0

/-! ### The renderer -/

/-- The colour of output pixel (y, x) (R135 to R137). -/
def renderPixel (d : Display) (y x : Nat) : Pixel :=
  if litPixel (gridBit d (sourceRow d.scandir y) (sourceCol d.segremap x)) d.inv then gray d.contrast else transparent

/-- `Render(target)` (R135): the target after it. Element `y * 128 + x` is pixel (y, x) (R45).
Irreducible for the reason `flushGrid` is. -/
@[irreducible] def render (d : Display) (target : List Pixel) : List Pixel :=
  if d.on then
    (List.range pixbufMin).map (fun i => renderPixel d (i / fbCols) (i % fbCols)) ++ target.drop pixbufMin
  else target

end Sys2Proof.Machine
end

