-- ==== Sys2Proof/Machine/AudioEvents.lean ====
section
/-! DEFINITION. The audio events: toggle edge, sample tick, read (`43_audio.md` R150 to R157). -/

namespace Sys2Proof.Machine

/-- The total after an interval: the sum, or a free value where the spec gives none (R150, U8, U16; log entry 14). -/
def totAfter (a : Audio) (now : Cycle) (fresh : Nat) : Cycle :=
  (cycleSum a.tot (elapsed a.tlast now)).getD (Config.freeTot fresh)

/-- The high total after an interval, which counts iff the stored level was high during it (R150, R151; log entry 14). -/
def highAfter (a : Audio) (now : Cycle) (fresh : Nat) : Cycle :=
  if a.tog then (cycleSum a.high (elapsed a.tlast now)).getD (Config.freeHigh fresh) else a.high

/-- Does the event take a free value? -/
def toggleDraws (a : Audio) (now : Cycle) : Bool :=
  (cycleSum a.tot (elapsed a.tlast now)).isNone || (a.tog && (cycleSum a.high (elapsed a.tlast now)).isNone)

/-- `ToggleEdge(level, now)` on a ready block (R150). -/
def toggle (level : Bool) (now : Cycle) (s : State) : State :=
  (s.setAudio
    ((((s.audio.setTot (totAfter s.audio now s.fresh)).setHigh (highAfter s.audio now s.fresh)).setTlast now).setTog level)).setFresh
      (if toggleDraws s.audio now then s.fresh + 1 else s.fresh)

/-- The sample of a window with `tot` > 0 (R154), or a free value if the formula exceeds a byte (U3; log entry 15). -/
def sampleByte (cfg : Config) (a : Audio) (fresh : Nat) : Byte :=
  if sampleValue cfg a.high a.tot < 256 then BitVec.ofNat 8 (sampleValue cfg a.high a.tot) else Config.freeSample fresh

/-- Does the tick take a free value? -/
def sampleDraws (cfg : Config) (a : Audio) : Bool :=
  decide (a.tot ≠ 0) && decide (256 ≤ sampleValue cfg a.high a.tot)

/-- The buffer after a tick: an empty window adds nothing (R155), a full buffer drops the sample (R156). -/
def bufferAfterTick (cfg : Config) (a : Audio) (fresh : Nat) : List Byte :=
  if a.tot = 0 then a.abuf
  else if a.abuf.length < audioCap then a.abuf ++ [sampleByte cfg a fresh]
  else a.abuf

/-- `SampleTick` on a ready block (R153): both accumulators clear in every case; `tog` and `tlast` stay. -/
def tick (s : State) : State :=
  (s.setAudio (((s.audio.setAbuf (bufferAfterTick s.cfg s.audio s.fresh)).setTot 0).setHigh 0)).setFresh
    (if sampleDraws s.cfg s.audio then s.fresh + 1 else s.fresh)

/-- `ReadAudio` on a ready block (R157): a short target is a precondition violation that keeps the samples (decision D22, log entry
26); else everything is copied, oldest first, and the buffer drains. -/
def readAll (target : List Byte) (s : State) : State :=
  if target.length < audioReadMin then preconditionViolation (some (.audio 0 target)) s
  else (s.setAudio (s.audio.setAbuf [])).addResult
    (.audio s.audio.abuf.length (s.audio.abuf ++ target.drop s.audio.abuf.length))

/-- ToggleEdge(level, now) (R150). -/
def execToggleEdge (level : Bool) (now : Cycle) (s : State) : Answer := .next (gate none (toggle level now) s)

/-- SampleTick (R153). -/
def execSampleTick (s : State) : Answer := .next (gate none tick s)

/-- ReadAudio(target) (R157). -/
def execReadAudio (target : List Byte) (s : State) : Answer :=
  .next (gate (some (.audio 0 target)) (readAll target) s)

end Sys2Proof.Machine
end

