-- ==== Sys2Proof/Machine/Addressing.lean ====
section
/-! DEFINITION. The first two bytes of a transaction: ADDR, CTRL_CMD, CTRL_DATA (`40_bus_events.md` R89, R92). -/

namespace Sys2Proof.Machine

/-- `CommitAddress` (R89): the phase of the control byte on a match, a desync otherwise. Bit 0 is ignored (R62). -/
def commitAddress (addr : BitVec 7) (_rw : Bool) (s : State) : State :=
  if addrMatch s.cfg addr then s.setBus (s.bus.setBst .addressPhase) else desync s

/-- `CommitControl` on Command (R92). -/
def selectCommand (s : State) : State := s.setBus (s.bus.setBst .commandPhase)

/-- `CommitControl` on Data (R92). -/
def selectData (s : State) : State := s.setBus (s.bus.setBst .dataPhase)

/-- ADDR (R89). -/
def execAddr (addr : BitVec 7) (rw : Bool) (s : State) : Answer := .next (commitAddress addr rw s)

/-- CTRL_CMD (R92). -/
def execCtrlCmd (s : State) : Answer := .next (selectCommand s)

/-- CTRL_DATA (R92). -/
def execCtrlData (s : State) : Answer := .next (selectData s)

end Sys2Proof.Machine
end

