-- ==== Sys2Proof/Machine/Commands.lean ====
section
/-! DEFINITION. The display commands and their parameters (`41_display_commands.md` R102 to R114). -/

namespace Sys2Proof.Machine

/-- SETLOWCOL (R102). -/
def setLowCol (n : BitVec 4) (s : State) : State := s.setDisp (s.disp.setCol (colWithLow s.disp.col n))

/-- SETHIGHCOL (R103). -/
def setHighCol (n : BitVec 4) (s : State) : State := s.setDisp (s.disp.setCol (colWithHigh s.disp.col n))

/-- SETPAGE (R112). -/
def setPage (p : BitVec 3) (s : State) : State := s.setDisp (s.disp.setPage p)

/-- The pending parameter, written by every two-byte opcode and cleared by every parameter (R21). -/
def setPend (p : Pending) (s : State) : State := s.setDisp (s.disp.setPend p)

/-- `ParamMemMode` (R105): `pend` is cleared in every case; an odd value desyncs and leaves `mode`. -/
def paramMemMode (v : Byte) (s : State) : State :=
  match memModeOf v with
  | some m => s.setDisp ((s.disp.setPend .none).setMode m)
  | none => desync (setPend .none s)

/-- `ParamContrast` (R107). -/
def paramContrast (v : Byte) (s : State) : State := s.setDisp ((s.disp.setContrast v).setPend .none)

/-- SEGREMAP f (R108). -/
def segRemap (f : Bool) (s : State) : State := s.setDisp (s.disp.setSegremap f)

/-- INVERT f (R109). -/
def invertFlag (f : Bool) (s : State) : State := s.setDisp (s.disp.setInv f)

/-- DISPLAYONOFF f (R110). -/
def displayOnOff (f : Bool) (s : State) : State := s.setDisp (s.disp.setOn f)

/-- COMSCAN f (R111). -/
def comScan (f : Bool) (s : State) : State := s.setDisp (s.disp.setScandir f)

/-- `ExtCommand(n)` (R114): no effect but `pend` = Skip when the entry has a parameter. -/
def extCommand (hasParam : Bool) (s : State) : State := if hasParam then setPend .skip s else s

/-- SETLOWCOL n (R102). -/
def execSetLowCol (n : BitVec 4) (s : State) : Answer := .next (setLowCol n s)

/-- SETHIGHCOL n (R103). -/
def execSetHighCol (n : BitVec 4) (s : State) : Answer := .next (setHighCol n s)

/-- SETMEMMODE, first byte (R104). -/
def execSetMemMode (s : State) : Answer := .next (setPend .memMode s)

/-- PARAM_MEMMODE v (R105). -/
def execParamMemMode (v : Byte) (s : State) : Answer := .next (paramMemMode v s)

/-- SETCONTRAST, first byte (R106). -/
def execSetContrast (s : State) : Answer := .next (setPend .contrast s)

/-- PARAM_CONTRAST v (R107). -/
def execParamContrast (v : Byte) (s : State) : Answer := .next (paramContrast v s)

/-- SEGREMAP0 (R108). -/
def execSegRemap0 (s : State) : Answer := .next (segRemap false s)

/-- SEGREMAP1 (R108). -/
def execSegRemap1 (s : State) : Answer := .next (segRemap true s)

/-- NORMALDISPLAY (R109). -/
def execNormalDisplay (s : State) : Answer := .next (invertFlag false s)

/-- INVERTDISPLAY (R109). -/
def execInvertDisplay (s : State) : Answer := .next (invertFlag true s)

/-- DISPLAYOFF (R110). -/
def execDisplayOff (s : State) : Answer := .next (displayOnOff false s)

/-- DISPLAYON (R110). -/
def execDisplayOn (s : State) : Answer := .next (displayOnOff true s)

/-- SETPAGE p (R112). -/
def execSetPage (p : BitVec 3) (s : State) : Answer := .next (setPage p s)

/-- COMSCANINC (R111). -/
def execComScanInc (s : State) : Answer := .next (comScan false s)

/-- COMSCANDEC (R111). -/
def execComScanDec (s : State) : Answer := .next (comScan true s)

/-- UNRECOGNISED (R113): a desync, whatever the byte. -/
def execUnrecognised (_b : Byte) (s : State) : Answer := .next (desync s)

/-- EXTCMD (R114). -/
def execExtCmd (_b : Byte) (hasParam : Bool) (s : State) : Answer := .next (extCommand hasParam s)

/-- PARAM_SKIP v (R114): the byte is discarded. -/
def execParamSkip (_v : Byte) (s : State) : Answer := .next (setPend .none s)

end Sys2Proof.Machine
end

