-- ==== Sys2Proof/Machine/DataPath.lean ====
section
/-! DEFINITION. The data byte (`42_display_data_render.md` R130). -/

namespace Sys2Proof.Machine

/-- `OnDataByte` (R130): the store, then the cursor's advance, so that a flush includes the byte just stored. -/
def dataByte (b : Byte) (s : State) : State := s.setDisp (advanceCursor (storeStrip b s.disp))

/-- DATA d (R130). -/
def execData (d : Byte) (s : State) : Answer := .next (dataByte d s)

end Sys2Proof.Machine
end

