-- ==== Sys2Proof/Machine/Commit.lean ====
section
/-! DEFINITION. `CommitByte` (`40_bus_events.md` R88): the decoder reads the byte in its context and the byte's instruction acts. -/

namespace Sys2Proof.Machine

/-- What a byte-level instruction does to the state. The decoder of a byte gives no event and no pseudo-instruction. -/
def runByte (i : Instr) (s : State) : State :=
  match i with
  | .addr a rw => commitAddress a rw s
  | .ctrlCmd => selectCommand s
  | .ctrlData => selectData s
  | .setLowCol n => setLowCol n s
  | .setHighCol n => setHighCol n s
  | .setMemMode => setPend .memMode s
  | .paramMemMode v => paramMemMode v s
  | .setContrast => setPend .contrast s
  | .paramContrast v => paramContrast v s
  | .segRemap0 => segRemap false s
  | .segRemap1 => segRemap true s
  | .normalDisplay => invertFlag false s
  | .invertDisplay => invertFlag true s
  | .displayOff => displayOnOff false s
  | .displayOn => displayOnOff true s
  | .setPage p => setPage p s
  | .comScanInc => comScan false s
  | .comScanDec => comScan true s
  | .unrecognised _ => desync s
  | .extCmd _ p => extCommand p s
  | .paramSkip _ => setPend .none s
  | .data d => dataByte d s
  | .setup => s
  | .teardown => s
  | .sclEdge _ => s
  | .sdaEdge _ => s
  | .regWriteData _ => s
  | .regWriteStatus _ => s
  | .setRefreshTiming _ => s
  | .frameTick _ => s
  | .toggleEdge _ _ => s
  | .sampleTick => s
  | .readAudio _ => s
  | .start => s
  | .restart => s
  | .stop => s
  | .bit _ => s
  | .ack => s
  | .byte _ => s
  | .txn _ => s
  | .cmds _ => s
  | .dataTxn _ => s
  | .fast _ => s

/-- What a byte without an instruction does: in Idle nothing (R88), with an Invalid control byte a desync (R92, R172). -/
def rejectedByte (r : Reject) (s : State) : State :=
  match r with
  | .noTransaction => s
  | .badControl => desync s
  | .unwatchedRegister => s
  | .scriptText => s

/-- `CommitByte(b)` (R88). -/
def commitByte (b : Byte) (s : State) : State :=
  match decodeByte s.cfg.extCmds s.bus.bst s.disp.pend b with
  | .ok i => runByte i s
  | .error r => rejectedByte r s

end Sys2Proof.Machine
end

