-- ==== Sys2Proof/Machine/BusEvents.lean ====
section
/-! DEFINITION. The bus events: clock edges, data edges, register writes (`40_bus_events.md` R80 to R91). -/

namespace Sys2Proof.Machine

/-- `SampleBit()` (R82). -/
def sampleBit (s : State) : State :=
  s.setBus ((s.bus.setAcc (shiftIn s.bus.acc s.bus.sda)).setCnt (s.bus.cnt + 1))

/-- `AckSlot()` (R83; decision D6, log entry 23). -/
def ackSlot (s : State) : State := commitByte s.bus.acc (s.setBus (s.bus.setCnt 0))

/-- A rising clock edge once the level is stored (R81): it samples or commits while a transaction is active. -/
def clockRise (s : State) : State :=
  if s.bus.bst = .idle then s
  else if s.bus.cnt < 8 then sampleBit s
  else ackSlot s

/-- `SclEdge(level)` (R81): only a change from 0 to 1 is a rising edge (R80; decision D5, log entry 23). -/
def clockEdge (level : Bool) (s : State) : State :=
  if s.bus.scl = false ∧ level = true then clockRise (s.setBus (s.bus.setScl level))
  else s.setBus (s.bus.setScl level)

/-- `SdaEdge(level)` (R84): with the clock high a fall is a start, a rise a stop. -/
def dataEdge (level : Bool) (s : State) : State :=
  if s.bus.scl = true ∧ s.bus.sda = true ∧ level = false then startCondition (s.setBus (s.bus.setSda level))
  else if s.bus.scl = true ∧ s.bus.sda = false ∧ level = true then stopCondition (s.setBus (s.bus.setSda level))
  else s.setBus (s.bus.setSda level)

/-- `RegWrite(REG_DATA, value)` (R90). -/
def latchData (value : Byte) (s : State) : State := s.setBus (s.bus.setDr value)

/-- `RegWrite(REG_STATUS, value)` (R91): the sentinel commits the latched byte, any other value does nothing (decision D8, log
entry 23). -/
def writeStatus (value : Byte) (s : State) : State :=
  if value = s.cfg.srSentinel then commitByte s.bus.dr (s.setBus (s.bus.setCnt 0)) else s

/-- SclEdge(level) (R81). -/
def execSclEdge (level : Bool) (s : State) : Answer := .next (gate none (clockEdge level) s)

/-- SdaEdge(level) (R84). -/
def execSdaEdge (level : Bool) (s : State) : Answer := .next (gate none (dataEdge level) s)

/-- RegWrite(REG_DATA, value) (R90). -/
def execRegWriteData (value : Byte) (s : State) : Answer := .next (gate none (latchData value) s)

/-- RegWrite(REG_STATUS, value) (R91). -/
def execRegWriteStatus (value : Byte) (s : State) : Answer := .next (gate none (writeStatus value) s)

end Sys2Proof.Machine
end

