-- ==== Sys2Proof/Machine/DisplayEvents.lean ====
section
/-! DEFINITION. The display events: refresh policy and frame tick (`42_display_data_render.md` R133, R134). -/

namespace Sys2Proof.Machine

/-- `SetRefreshTiming` on a ready block (R133): it neither flushes nor touches the framebuffer. -/
def refreshTiming (roundMode : Bool) (s : State) : State :=
  (s.setDisp (s.disp.setRound roundMode)).addResult (.timing true)

/-- The flush of a frame tick: under frame-refresh only (R134). -/
def frameFlush (d : Display) : Display := if d.round then d else flush d

/-- `FrameTick` on a ready block (R134): a short target is a precondition violation with no flush; with `on` = 0 the call still
flushes and returns true (decision D19, log entry 25). -/
def frameTick (target : List Pixel) (s : State) : State :=
  if target.length < pixbufMin then preconditionViolation (some (.frame false target)) s
  else (s.setDisp (frameFlush s.disp)).addResult (.frame true (render (frameFlush s.disp) target))

/-- SetRefreshTiming(roundMode) (R133). -/
def execSetRefreshTiming (roundMode : Bool) (s : State) : Answer :=
  .next (gate (some (.timing false)) (refreshTiming roundMode) s)

/-- FrameTick(target) (R134). -/
def execFrameTick (target : List Pixel) (s : State) : Answer :=
  .next (gate (some (.frame false target)) (frameTick target) s)

end Sys2Proof.Machine
end

