-- ==== Sys2Proof/Machine/Lifecycle.lean ====
section
/-! DEFINITION. Setup and Teardown (`70_reset_and_hazards.md` R190 to R192, `60_exceptions.md` R178). -/

namespace Sys2Proof.Machine

/-- `Setup` (R190): every component takes its value of R36, whatever the state was (R191); `dr` is a free value (U1, log entry 2).
The parameters, the events still to come and the results already given are no components and stay. -/
def setupBlock (s : State) : State :=
  (((((s.setReady true).setBus (Bus.reset (Config.freeDr s.fresh))).setDisp (Display.reset s.cfg.resetCfg)).setAudio
    Audio.reset).setFresh (s.fresh + 1))

/-- `Teardown` (R178): idempotent, and nothing but `ready` changes. -/
def teardownBlock (s : State) : State := s.setReady false

/-- Setup (R190). -/
def execSetup (s : State) : Answer := .next (setupBlock s)

/-- Teardown (R178). -/
def execTeardown (s : State) : Answer := .next (teardownBlock s)

end Sys2Proof.Machine
end

