-- ==== Sys2Proof/Machine/Script.lean ====
section
/-! DEFINITION. Delivering events in order, and the pseudo-instructions of the script, each the run of its expansion (`30_encoding.md`
R75, R76; log entry 20). -/

namespace Sys2Proof.Machine

/-- One event (R5). -/
def deliver (s : State) (e : Event) : State :=
  match e with
  | .setup => setupBlock s
  | .teardown => teardownBlock s
  | .sclEdge l => gate none (clockEdge l) s
  | .sdaEdge l => gate none (dataEdge l) s
  | .regWrite .data v => gate none (latchData v) s
  | .regWrite .status v => gate none (writeStatus v) s
  | .regWrite (.other _) _ => rejectedEvent .unwatchedRegister s
  | .setRefreshTiming r => gate (some (.timing false)) (refreshTiming r) s
  | .frameTick t => gate (some (.frame false t)) (frameTick t) s
  | .toggleEdge l now => gate none (toggle l now) s
  | .sampleTick => gate none tick s
  | .readAudio t => gate (some (.audio 0 t)) (readAll t) s

/-- A sequence of events, one after another (R6, R51). -/
def deliverAll (es : List Event) (s : State) : State := es.foldl deliver s

/-- START. -/
def execStart (s : State) : Answer := .next (deliverAll startEvents s)

/-- RESTART. -/
def execRestart (s : State) : Answer := .next (deliverAll restartEvents s)

/-- STOP. -/
def execStop (s : State) : Answer := .next (deliverAll stopEvents s)

/-- BIT d. -/
def execBit (d : Bool) (s : State) : Answer := .next (deliverAll (bitEvents d) s)

/-- ACK. -/
def execAck (s : State) : Answer := .next (deliverAll ackEvents s)

/-- BYTE v. -/
def execByte (v : Byte) (s : State) : Answer := .next (deliverAll (byteEvents v) s)

/-- TXN b1 ... bk. -/
def execTxn (bs : List Byte) (s : State) : Answer := .next (deliverAll (txnEvents bs) s)

/-- CMDS c1 ... ck. -/
def execCmds (cs : List Byte) (s : State) : Answer := .next (deliverAll (cmdsEvents s.cfg cs) s)

/-- DATA d1 ... dk of the script (DATA_TXN). -/
def execDataTxn (ds : List Byte) (s : State) : Answer := .next (deliverAll (dataEvents s.cfg ds) s)

/-- FAST v. -/
def execFast (v : Byte) (s : State) : Answer := .next (deliverAll (fastEvents s.cfg v) s)

end Sys2Proof.Machine
end

