-- ==== Sys2Proof/Machine/Dispatch.lean ====
section
/-! DEFINITION. `exec`: one arm for each instruction, each one call of its meaning. -/

namespace Sys2Proof.Machine

def exec (i : Instr) (s : State) : Host.Outcome State Fault Refusal :=
  match i with
  | .addr addr rw => Sys2Proof.Machine.execAddr addr rw s
  | .ctrlCmd => Sys2Proof.Machine.execCtrlCmd s
  | .ctrlData => Sys2Proof.Machine.execCtrlData s
  | .setLowCol n => Sys2Proof.Machine.execSetLowCol n s
  | .setHighCol n => Sys2Proof.Machine.execSetHighCol n s
  | .setMemMode => Sys2Proof.Machine.execSetMemMode s
  | .paramMemMode v => Sys2Proof.Machine.execParamMemMode v s
  | .setContrast => Sys2Proof.Machine.execSetContrast s
  | .paramContrast v => Sys2Proof.Machine.execParamContrast v s
  | .segRemap0 => Sys2Proof.Machine.execSegRemap0 s
  | .segRemap1 => Sys2Proof.Machine.execSegRemap1 s
  | .normalDisplay => Sys2Proof.Machine.execNormalDisplay s
  | .invertDisplay => Sys2Proof.Machine.execInvertDisplay s
  | .displayOff => Sys2Proof.Machine.execDisplayOff s
  | .displayOn => Sys2Proof.Machine.execDisplayOn s
  | .setPage p => Sys2Proof.Machine.execSetPage p s
  | .comScanInc => Sys2Proof.Machine.execComScanInc s
  | .comScanDec => Sys2Proof.Machine.execComScanDec s
  | .unrecognised b => Sys2Proof.Machine.execUnrecognised b s
  | .extCmd b p => Sys2Proof.Machine.execExtCmd b p s
  | .paramSkip v => Sys2Proof.Machine.execParamSkip v s
  | .data d => Sys2Proof.Machine.execData d s
  | .setup => Sys2Proof.Machine.execSetup s
  | .teardown => Sys2Proof.Machine.execTeardown s
  | .sclEdge level => Sys2Proof.Machine.execSclEdge level s
  | .sdaEdge level => Sys2Proof.Machine.execSdaEdge level s
  | .regWriteData v => Sys2Proof.Machine.execRegWriteData v s
  | .regWriteStatus v => Sys2Proof.Machine.execRegWriteStatus v s
  | .setRefreshTiming r => Sys2Proof.Machine.execSetRefreshTiming r s
  | .frameTick target => Sys2Proof.Machine.execFrameTick target s
  | .toggleEdge level now => Sys2Proof.Machine.execToggleEdge level now s
  | .sampleTick => Sys2Proof.Machine.execSampleTick s
  | .readAudio target => Sys2Proof.Machine.execReadAudio target s
  | .start => Sys2Proof.Machine.execStart s
  | .restart => Sys2Proof.Machine.execRestart s
  | .stop => Sys2Proof.Machine.execStop s
  | .bit d => Sys2Proof.Machine.execBit d s
  | .ack => Sys2Proof.Machine.execAck s
  | .byte v => Sys2Proof.Machine.execByte v s
  | .txn bs => Sys2Proof.Machine.execTxn bs s
  | .cmds cs => Sys2Proof.Machine.execCmds cs s
  | .dataTxn ds => Sys2Proof.Machine.execDataTxn ds s
  | .fast v => Sys2Proof.Machine.execFast v s

end Sys2Proof.Machine
end

