-- ==== Sys2Proof/Machine/Step.lean ====
section
/-! DEFINITION. The step: the block takes the next event the platform delivers, and processes it to completion (R5, R6). -/

namespace Sys2Proof.Machine

/-- One step. With no event to deliver the block does not move (R5; log entry 7); an event with no row does what R91 says: nothing. -/
def step (s : State) : Host.Outcome State Fault Refusal :=
  match s.input with
  | [] => .next s
  | e :: rest =>
    match decodeEvent e with
    | .ok i => exec i (s.setInput rest)
    | .error r => .next (rejectedEvent r (s.setInput rest))

/-- The state in which the very next step commits the byte `w` in the context the table's numbering takes for it (log entries 7 and
21): the gate open, the transaction in that context with no parameter pending, the eight bits of `w` in the accumulator, the clock
low, and the rise of the ninth clock pulse the next event. -/
def State.withFetchWord (s : State) (nbits w : Nat) : State :=
  if nbits = 8 then
    (((s.setReady true).setBus
      ((((s.bus.setScl false).setBst (tableContext (BitVec.ofNat 8 w))).setCnt 8).setAcc (BitVec.ofNat 8 w))).setDisp
        (s.disp.setPend .none)).setInput (.sclEdge true :: s.input)
  else s

end Sys2Proof.Machine
end

