-- ==== Sys2Proof/WellFormed.lean ====
section
/-! DEFINITION. Which instructions are well formed for a list of extra commands, which of the three levels of R60 an instruction
is written at, and which configurations R4 and R71 allow. -/

namespace Sys2Proof

/-- The three levels of R60 an instruction can be written at. -/
inductive Kind where
  /-- A byte committed on the bus. -/
  | byte
  /-- An event of R5. -/
  | event
  /-- A pseudo-instruction of R76. -/
  | script
  deriving DecidableEq, Repr

/-- The level of each row of the opcode table (its "context"). -/
def Instr.kind : Instr → Kind
  | .addr _ _ => .byte
  | .ctrlCmd => .byte
  | .ctrlData => .byte
  | .setLowCol _ => .byte
  | .setHighCol _ => .byte
  | .setMemMode => .byte
  | .paramMemMode _ => .byte
  | .setContrast => .byte
  | .paramContrast _ => .byte
  | .segRemap0 => .byte
  | .segRemap1 => .byte
  | .normalDisplay => .byte
  | .invertDisplay => .byte
  | .displayOff => .byte
  | .displayOn => .byte
  | .setPage _ => .byte
  | .comScanInc => .byte
  | .comScanDec => .byte
  | .unrecognised _ => .byte
  | .extCmd _ _ => .byte
  | .paramSkip _ => .byte
  | .data _ => .byte
  | .setup => .event
  | .teardown => .event
  | .sclEdge _ => .event
  | .sdaEdge _ => .event
  | .regWriteData _ => .event
  | .regWriteStatus _ => .event
  | .setRefreshTiming _ => .event
  | .frameTick _ => .event
  | .toggleEdge _ _ => .event
  | .sampleTick => .event
  | .readAudio _ => .event
  | .start => .script
  | .restart => .script
  | .stop => .script
  | .bit _ => .script
  | .ack => .script
  | .byte _ => .script
  | .txn _ => .script
  | .cmds _ => .script
  | .dataTxn _ => .script
  | .fast _ => .script

/-- Well-formedness for the extra commands `ext`: a byte held by UNRECOGNISED matches no row of R65 and no entry of `ExtCmds`
(R72 c); a byte held by EXTCMD matches no row of R65 and its first entry has the parameter count it names (R71, R101). The fields
of every other instruction are exactly as wide as the table's, so every value of them is legal. -/
def Instr.wf (ext : List ExtCmd) : Instr → Bool
  | .unrecognised b => !inCommandTable b && (findExt ext b).isNone
  | .extCmd b p => !inCommandTable b && decide ((findExt ext b).map ExtCmd.hasParam = some p)
  | _ => true

/-- The premises of R4 and R71 on the parameters: `AUDIO_BASE + AUDIO_AMP <= 255`, no `ExtCmds` entry overlaps a row of R65, and
(so that R37 holds after `Setup`) `pend` resets to Skip only if there are extra commands. -/
abbrev Config.wf (cfg : Config) : Prop :=
  cfg.audioBase.toNat + cfg.audioAmp.toNat ≤ 255 ∧
  (∀ n ∈ List.range 256, inCommandTable (BitVec.ofNat 8 n) = true → findExt cfg.extCmds (BitVec.ofNat 8 n) = none) ∧
  (cfg.resetCfg.pend = .skip → cfg.extCmds ≠ [])

end Sys2Proof
end

