-- ==== Sys2Proof/Safety.lean ====
section
/-! DEFINITION. The terms the claims use: the invariants of `10_state.md` R37, the platform's duty on timestamps, the byte an event
commits, the transition table of `40_bus_events.md` R93, indistinguishable states, and runs of instructions. -/

namespace Sys2Proof.Machine

/-! ### Invariants -/

/-- What every step keeps (R37), beside the ranges that `page` and `col` have by their types: the counter's range, the canonical
form of the framebuffer, the bound of the audio buffer, and Skip only with extra commands. The premises on the parameters are part
of it, since no step writes them. -/
def State.Inv (s : State) : Prop :=
  s.cfg.wf ∧ s.bus.cnt ≤ 8 ∧ Memory.wf s.disp.fb ∧ s.audio.abuf.length ≤ audioCap ∧
    (s.disp.pend = .skip → s.cfg.extCmds ≠ [])

/-- What every step keeps of the AUDIO sub-block while the platform's timestamps never decrease (R37): `high <= tot`, no total
beyond the time that has passed, and every sample between `AUDIO_BASE` and `AUDIO_BASE + AUDIO_AMP`. -/
def State.AudioInv (s : State) : Prop :=
  s.cfg.audioBase.toNat + s.cfg.audioAmp.toNat ≤ 255 ∧
  s.audio.high.toNat ≤ s.audio.tot.toNat ∧ s.audio.tot.toNat ≤ s.audio.tlast.toNat ∧
  ∀ b ∈ s.audio.abuf, s.cfg.audioBase.toNat ≤ b.toNat ∧ b.toNat ≤ s.cfg.audioBase.toNat + s.cfg.audioAmp.toNat

/-- The platform's duty on the next event (R150, R215): a toggle event's `now` is no earlier than `tlast`. -/
def State.timely (s : State) : Prop :=
  ∀ level now rest, s.input = .toggleEdge level now :: rest → s.audio.tlast.toNat ≤ now.toNat

/-! ### What an event does to the transaction -/

/-- The byte an event commits in a state, if any: the ninth clock pulse commits `acc` (R83), a sentinel write `dr` (R91). -/
def committed (s : State) (e : Event) : Option Byte :=
  match e with
  | .sclEdge true => if s.ready ∧ s.bus.scl = false ∧ s.bus.bst ≠ .idle ∧ 8 ≤ s.bus.cnt then some s.bus.acc else none
  | .regWrite .status v => if s.ready ∧ v = s.cfg.srSentinel then some s.bus.dr else none
  | _ => none

/-- Is the event a start: a fall of the data line while the clock is high (R84)? -/
def isStart (s : State) (e : Event) : Bool :=
  match e with
  | .sdaEdge false => s.ready && s.bus.scl && s.bus.sda
  | _ => false

/-- Is the event a stop: a rise of the data line while the clock is high (R84)? -/
def isStop (s : State) (e : Event) : Bool :=
  match e with
  | .sdaEdge true => s.ready && s.bus.scl && !s.bus.sda
  | _ => false

/-- The two right-hand columns of the table of R93: where a committed byte leads. -/
def bstAfterByte (s : State) (b : Byte) : BusState :=
  match s.bus.bst with
  | .idle => .idle
  | .started => if b.toNat / 2 = s.cfg.devAddr.toNat then .addressPhase else .idle
  | .addressPhase => if b = 0x00 then .commandPhase else if b = 0x40 then .dataPhase else .idle
  | .commandPhase =>
    if s.disp.pend = .none ∧ inCommandTable b = false ∧ findExt s.cfg.extCmds b = none then .idle
    else if s.disp.pend = .memMode ∧ b.toNat % 2 = 1 then .idle
    else .commandPhase
  | .dataPhase => .dataPhase

/-- The whole table of R93, with `Setup` (to Idle) as the only further cause. -/
def bstAfter (s : State) (e : Event) : BusState :=
  if e = .setup then .idle
  else if isStart s e then .started
  else if isStop s e then .idle
  else
    match committed s e with
    | some b => bstAfterByte s b
    | none => s.bus.bst

/-! ### Observation -/

/-- Two states that differ at most in bits of `acc` that no later commit can show: everything else is equal, and while a transaction
is active the `cnt` bits already sampled are (R16, R213). -/
def sameButStaleBits (s t : State) : Prop :=
  t = { s with bus := { s.bus with acc := t.bus.acc } } ∧
    (s.bus.bst ≠ .idle → ∀ k < s.bus.cnt, s.bus.acc.getLsbD k = t.bus.acc.getLsbD k)

/-- The cursor as a linear position: `page * 128 + col` (R131). -/
def cursorPosition (s : State) : Nat := s.disp.page.toNat * 128 + s.disp.col.toNat

/-! ### Runs -/

/-- Instructions one after another, stopping at a fault or a refusal. -/
def runInstrs (is : List Instr) (s : State) : Host.Outcome State Fault Refusal :=
  match is with
  | [] => .next s
  | i :: rest =>
    match exec i s with
    | .next t => runInstrs rest t
    | .fault f => .fault f
    | .refused r => .refused r

/-- The wire events of one bit: any data levels while the clock is low, then a clock pulse (R95). -/
def wireBit (levels : List Bool) : List Event := levels.map .sdaEdge ++ [.sclEdge true, .sclEdge false]

/-- The wire events up to the ninth rising edge (R95): eight bits, each with any data levels before the one that is sampled, then
any data levels before the acknowledgement slot. -/
def wireByte (bits : List (List Bool × Bool)) (idle : List Bool) : List Event :=
  bits.flatMap (fun p => wireBit (p.1 ++ [p.2])) ++ (idle.map .sdaEdge ++ [.sclEdge true])

end Sys2Proof.Machine
end

