-- ==== Sys2Proof/Certificates/Slice0/Obligations.lean ====
section
/-! DEFINITION. The statements for the provers, from the spec's numbered rules. A next state is written out as the state before with
the fields the rule writes, so each equation is also the instruction's frame: every other register, every byte of the framebuffer,
the grid, the audio buffer and the model's own fields are as before. -/

open Sys2Proof Sys2Proof.Machine

/-! ### Encodings -/

/-- R62 to R66 (byte level), R5 and R74 (events): decoding what a well-formed instruction is written as gives it back, every field at
every value. -/
def Obligations.DecodingAnEncodingGivesTheInstructionBack : Prop :=
  ∀ (cfg : Config) (i : Instr), i.wf cfg.extCmds = true → i.kind ≠ .script →
    decodeEncoding cfg.extCmds (encode cfg i) = .ok i

/-- R88, R100: what the decoder reads from a byte in a context is well formed, is a byte-level instruction, and is written as that
byte in that context. -/
def Obligations.EncodingADecodedByteGivesTheByteBack : Prop :=
  ∀ (cfg : Config) (bst : BusState) (pend : Pending) (b : Byte) (i : Instr),
    decodeByte cfg.extCmds bst pend b = .ok i →
      i.wf cfg.extCmds = true ∧ i.kind = .byte ∧
      ∃ pend', encode cfg i = .byte bst pend' b ∧ (bst = .commandPhase → pend' = pend)

/-- R70: the whole map of a byte committed in CommandPhase with nothing pending, by ascending value, for any list of extra commands
(R71, R101: the table first). The opcode numbers are the spec's decision D9. -/
def Obligations.CommandMapByAscendingValue : Prop :=
  ∀ (ext : List ExtCmd) (b : Byte),
    decodeByte ext .commandPhase .none b = .ok (
      if b.toNat ≤ 0x0F then .setLowCol (BitVec.ofNat 4 b.toNat)
      else if b.toNat ≤ 0x1F then .setHighCol (BitVec.ofNat 4 (b.toNat - 0x10))
      else if b.toNat = 0x20 then .setMemMode
      else if b.toNat = 0x81 then .setContrast
      else if b.toNat = 0xA0 then .segRemap0
      else if b.toNat = 0xA1 then .segRemap1
      else if b.toNat = 0xA6 then .normalDisplay
      else if b.toNat = 0xA7 then .invertDisplay
      else if b.toNat = 0xAE then .displayOff
      else if b.toNat = 0xAF then .displayOn
      else if 0xB0 ≤ b.toNat ∧ b.toNat ≤ 0xB7 then .setPage (BitVec.ofNat 3 (b.toNat - 0xB0))
      else if b.toNat = 0xC0 then .comScanInc
      else if b.toNat = 0xC8 then .comScanDec
      else match findExt ext b with
        | some e => .extCmd b e.hasParam
        | none => .unrecognised b)

/-- R62, R63, R66, R69: words written out from the formats decode to what they stand for. The values are those of the spec's
decisions D3, D4, D9. -/
def Obligations.WordsOfTheSpecDecode : Prop :=
  decodeByte [] .started .none 0b01111000 = .ok (.addr 0x3C false) ∧
  decodeByte [] .started .none 0b01111001 = .ok (.addr 0x3C true) ∧
  decodeByte [] .addressPhase .none 0b00000000 = .ok .ctrlCmd ∧
  decodeByte [] .addressPhase .none 0b01000000 = .ok .ctrlData ∧
  decodeByte [] .addressPhase .none 0b10000000 = .error .badControl ∧
  decodeByte [] .commandPhase .none 0b00010111 = .ok (.setHighCol 7) ∧
  decodeByte [] .commandPhase .none 0b10110101 = .ok (.setPage 5) ∧
  decodeByte [] .commandPhase .contrast 0b10101111 = .ok (.paramContrast 0xAF) ∧
  decodeByte [] .commandPhase .memMode 0b00000010 = .ok (.paramMemMode 2) ∧
  decodeByte [⟨0xA8, 0xFF, true⟩] .commandPhase .none 0b10101000 = .ok (.extCmd 0xA8 true) ∧
  decodeByte [] .dataPhase .none 0b10000001 = .ok (.data 0x81) ∧
  decodeEvent (.regWrite .status 0xF0) = .ok (.regWriteStatus 0xF0)

/-! ### The step -/

/-- R5, R6: the step takes the next event and runs its instruction; an event with no row (a register that is not watched, R91) does
nothing; with no event the block does not move (the model's choice, log entry 7). -/
def Obligations.StepRunsTheNextEvent : Prop :=
  ∀ (s : State) (e : Event) (rest : List Event),
    (s.input = e :: rest →
      (∀ i, decodeEvent e = .ok i → step s = exec i { s with input := rest }) ∧
      (∀ r, decodeEvent e = .error r → step s = .next { s with input := rest })) ∧
    (s.input = [] → step s = .next s)

/-- R83, R88: the step of a ninth clock pulse runs the instruction the accumulated byte decodes to, on the state with the clock high
and the counter cleared. -/
def Obligations.NinthPulseStepRunsTheByte : Prop :=
  ∀ (s : State) (rest : List Event) (i : Instr),
    s.input = .sclEdge true :: rest → s.ready = true → s.bus.scl = false → s.bus.bst ≠ .idle → 8 ≤ s.bus.cnt →
    decodeByte s.cfg.extCmds s.bus.bst s.disp.pend s.bus.acc = .ok i →
    step s = exec i { s with input := rest, bus := { s.bus with scl := true, cnt := 0 } }

/-- R91, R88: the step of a sentinel write runs the instruction the latched byte decodes to, with the counter cleared. That the byte
goes through the same commit is the spec's decision D8. -/
def Obligations.SentinelStepRunsTheLatchedByte : Prop :=
  ∀ (s : State) (rest : List Event) (i : Instr),
    s.input = .regWrite .status s.cfg.srSentinel :: rest → s.ready = true →
    decodeByte s.cfg.extCmds s.bus.bst s.disp.pend s.bus.dr = .ok i →
    step s = exec i { s with input := rest, bus := { s.bus with cnt := 0 } }

/-- R214: every event completes. No step stops, each consumes exactly the event it took, none writes the parameters, and what has
been given back stays given back. -/
def Obligations.EveryStepCompletes : Prop :=
  ∀ s : State, ∃ t, step s = .next t ∧ t.input = s.input.tail ∧ t.cfg = s.cfg ∧ s.results <+: t.results

/-! ### Reset, the gate -/

/-- R36: the reset state holds the values of the table after `Setup`, every strip 0x00 and every grid bit 0. The values are the
spec's decisions D24 and D26; nothing is said of `dr`, which is unspecified. -/
def Obligations.ResetHoldsTheTableOfValues : Prop :=
  State.reset.ready = true ∧
  State.reset.bus = { scl := true, sda := true, bst := .idle, cnt := 0, acc := 0, dr := State.reset.bus.dr } ∧
  State.reset.disp.mode = .page ∧ State.reset.disp.page = 0 ∧ State.reset.disp.col = 0 ∧ State.reset.disp.pend = .none ∧
  State.reset.disp.contrast = 0x7F ∧ State.reset.disp.on = false ∧ State.reset.disp.inv = false ∧
  State.reset.disp.segremap = false ∧ State.reset.disp.scandir = false ∧ State.reset.disp.round = false ∧
  (∀ p c, fbByte State.reset.disp p c = 0) ∧ (∀ y x, gridBit State.reset.disp y x = false) ∧
  State.reset.audio = { tog := false, tlast := 0, tot := 0, high := 0, abuf := [] } ∧
  State.reset.cfg.devAddr = 0x3C ∧ State.reset.cfg.extCmds = []

/-- R190, R191: `Setup` from any state, ready or not, gives every component its value after `Setup` (the spec's decisions D24, D25);
the display's register file is `ResetCfg` and `dr` holds any value (U1). -/
def Obligations.SetupRecreatesEverything : Prop :=
  ∀ s : State, ∃ dr : Byte,
    exec .setup s = .next { s with
      fresh := s.fresh + 1
      ready := true
      bus := { scl := true, sda := true, bst := .idle, cnt := 0, acc := 0, dr := dr }
      disp := {
        mode := s.cfg.resetCfg.mode, page := s.cfg.resetCfg.page, col := s.cfg.resetCfg.col, pend := s.cfg.resetCfg.pend
        contrast := s.cfg.resetCfg.contrast, on := s.cfg.resetCfg.on, inv := s.cfg.resetCfg.inv
        segremap := s.cfg.resetCfg.segremap, scandir := s.cfg.resetCfg.scandir, round := s.cfg.resetCfg.round
        fb := [], grid := Vector.replicate 64 0 }
      audio := { tog := false, tlast := 0, tot := 0, high := 0, abuf := [] } }

/-- R178: `Teardown` writes `ready` only, a second one changes nothing, after it every event but `Setup` is inert (a frame tick
gives false), and `Setup` overwrites what was kept: it does the same to the state torn down and to the state before, also where that
one is ready (R191). That `Setup` re-initialises a ready block too and that `Teardown` keeps all the rest is the spec's decision D25
(log entry 26). -/
def Obligations.TeardownClosesTheGate : Prop :=
  ∀ s : State,
    exec .teardown s = .next { s with ready := false } ∧
    exec .teardown { s with ready := false } = .next { s with ready := false } ∧
    (∀ i : Instr, i.kind = .event → i ≠ .setup →
      ∃ rs, exec i { s with ready := false } = .next { s with ready := false, results := s.results ++ rs }) ∧
    (∀ target, exec (.frameTick target) { s with ready := false } =
      .next { s with ready := false, results := s.results ++ [.frame false target] }) ∧
    exec .setup { s with ready := false } = exec .setup s ∧
    (∃ t, exec .setup { s with ready := false } = .next t ∧ t.audio.abuf = [] ∧ t.disp.fb = [])

/-- R177, R173: while `ready` = 0 every event other than `Setup` changes no component; the three events with a result give back the
false or zero one with the caller's buffer untouched, the others give back nothing. -/
def Obligations.NotReadyMeansInert : Prop :=
  ∀ s : State, s.ready = false →
    (∀ l, exec (.sclEdge l) s = .next s) ∧ (∀ l, exec (.sdaEdge l) s = .next s) ∧
    (∀ v, exec (.regWriteData v) s = .next s) ∧ (∀ v, exec (.regWriteStatus v) s = .next s) ∧
    (∀ l now, exec (.toggleEdge l now) s = .next s) ∧ exec .sampleTick s = .next s ∧ exec .teardown s = .next s ∧
    (∀ r, exec (.setRefreshTiming r) s = .next { s with results := s.results ++ [.timing false] }) ∧
    (∀ target, exec (.frameTick target) s = .next { s with results := s.results ++ [.frame false target] }) ∧
    (∀ target, exec (.readAudio target) s = .next { s with results := s.results ++ [.audio 0 target] })

/-- R177, R178, R214: after a teardown any number of events with no `Setup` among them leaves every component as it was, and nothing
but false or zero results with untouched buffers comes back. -/
def Obligations.NothingMovesUntilSetup : Prop :=
  ∀ (es rest : List Event) (s : State), s.ready = false → s.input = es ++ rest → .setup ∉ es →
    ∃ rs : List Result,
      Host.Core.run core es.length s = .next { s with input := rest, results := s.results ++ rs } ∧
      ∀ r ∈ rs, r = .timing false ∨ (∃ target, r = .frame false target ∧ .frameTick target ∈ es) ∨
        (∃ target, r = .audio 0 target ∧ .readAudio target ∈ es)

/-! ### The bus -/

/-- R81: `SclEdge` stores the level; on a rising edge with a transaction active it also samples (the accumulator doubled plus the
data level, the counter plus one) or, with eight bits in, clears the counter and commits the accumulator. That only a change from 0
to 1 is a rising edge (R80) is the spec's decision D5, that the ninth pulse commits on its rising edge (R83) its decision D6 (log
entry 23). -/
def Obligations.ClockEdgeSamplesOrCommits : Prop :=
  ∀ (s : State) (level : Bool), s.ready = true →
    exec (.sclEdge level) s = .next (
      if s.bus.scl = false ∧ level = true ∧ s.bus.bst ≠ .idle then
        if s.bus.cnt < 8 then
          { s with bus := { s.bus with
              scl := true
              acc := BitVec.ofNat 8 (2 * s.bus.acc.toNat + s.bus.sda.toNat)
              cnt := s.bus.cnt + 1 } }
        else commitByte s.bus.acc { s with bus := { s.bus with scl := true, cnt := 0 } }
      else { s with bus := { s.bus with scl := level } })

/-- R85: a fall of the data line while the clock is high enters Started with the counter cleared, whatever the state of the
transaction, and writes nothing else. -/
def Obligations.StartConditionFromAnyState : Prop :=
  ∀ s : State, s.ready = true → s.bus.scl = true → s.bus.sda = true →
    exec (.sdaEdge false) s = .next { s with bus := { s.bus with sda := false, bst := .started, cnt := 0 } }

/-- R84, R86, R87: a rise of the data line while the clock is high ends the transaction (the cleared counter is the spec's decision
D7); with the clock low, or on a repeated level (decision D5), only the level is stored. -/
def Obligations.StopAndPlainDataEdges : Prop :=
  ∀ (s : State) (level : Bool), s.ready = true →
    (s.bus.scl = true → s.bus.sda = false →
      exec (.sdaEdge true) s = .next { s with bus := { s.bus with sda := true, bst := .idle, cnt := 0 } }) ∧
    (s.bus.scl = false ∨ s.bus.sda = level →
      exec (.sdaEdge level) s = .next { s with bus := { s.bus with sda := level } })

/-- R90: a write of `REG_DATA` latches the byte in `dr` and writes nothing else, in every state of the transaction. That the block
keeps a latch of its own (R17) is the spec's decision D8 (log entry 23). -/
def Obligations.DataRegisterWriteLatches : Prop :=
  ∀ (s : State) (v : Byte), s.ready = true →
    exec (.regWriteData v) s = .next { s with bus := { s.bus with dr := v } }

/-- R91: a write of `REG_STATUS` with the sentinel clears the counter and commits `dr`, which is kept; any other value does nothing,
nor does a write of any other register (decision D8). -/
def Obligations.StatusRegisterWriteCommits : Prop :=
  ∀ (s : State) (v : Byte), s.ready = true →
    (v = s.cfg.srSentinel →
      exec (.regWriteStatus v) s = .next (commitByte s.bus.dr { s with bus := { s.bus with cnt := 0 } })) ∧
    (v ≠ s.cfg.srSentinel → exec (.regWriteStatus v) s = .next s) ∧
    (∀ id rest, s.input = .regWrite (.other id) v :: rest → step s = .next { s with input := rest })

/-- R88: a committed byte is an address, a control byte, a command or data according to `bst`; in Idle it does nothing. -/
def Obligations.CommitDispatchesOnTheBusState : Prop :=
  ∀ (s : State) (b : Byte),
    (s.bus.bst = .idle → commitByte b s = s) ∧
    (s.bus.bst = .started →
      exec (.addr (BitVec.ofNat 7 (b.toNat / 2)) (decide (b.toNat % 2 = 1))) s = .next (commitByte b s)) ∧
    (s.bus.bst = .addressPhase →
      (b = 0x00 → exec .ctrlCmd s = .next (commitByte b s)) ∧ (b = 0x40 → exec .ctrlData s = .next (commitByte b s)) ∧
      (b ≠ 0x00 → b ≠ 0x40 → commitByte b s = { s with bus := { s.bus with bst := .idle } })) ∧
    (s.bus.bst = .commandPhase → exec (decodeCommand s.cfg.extCmds s.disp.pend b) s = .next (commitByte b s)) ∧
    (s.bus.bst = .dataPhase → exec (.data b) s = .next (commitByte b s))

/-- R89, R92: an address byte moves on to the control byte iff its seven address bits equal `DEV_ADDR` (bit 0 ignored, decision
D3), else it desyncs; the control bytes select the phase (decision D4). Nothing but `bst` is written. -/
def Obligations.AddressAndControlBytesSelectThePhase : Prop :=
  ∀ s : State,
    (∀ a rw, exec (.addr a rw) s =
      .next { s with bus := { s.bus with bst := if a.toNat = s.cfg.devAddr.toNat then .addressPhase else .idle } }) ∧
    exec .ctrlCmd s = .next { s with bus := { s.bus with bst := .commandPhase } } ∧
    exec .ctrlData s = .next { s with bus := { s.bus with bst := .dataPhase } }

/-- R171: a desync, from each of its four causes, writes `bst` (to Idle) and nothing else, but for the `pend` that a bad mode
parameter has already cleared; and in Idle no clock edge samples or commits anything. -/
def Obligations.DesyncWritesTheBusStateOnly : Prop :=
  ∀ s : State,
    desync s = { s with bus := { s.bus with bst := .idle } } ∧
    (∀ a rw, a ≠ s.cfg.devAddr → exec (.addr a rw) s = .next (desync s)) ∧
    (∀ b, s.bus.bst = .addressPhase → b ≠ 0x00 → b ≠ 0x40 → commitByte b s = desync s) ∧
    (∀ b, exec (.unrecognised b) s = .next (desync s)) ∧
    (∀ v : Byte, v.toNat % 2 = 1 →
      exec (.paramMemMode v) s = .next (desync { s with disp := { s.disp with pend := .none } })) ∧
    (∀ level, s.bus.bst = .idle → s.ready = true →
      exec (.sclEdge level) s = .next { s with bus := { s.bus with scl := level } })

/-- R93: the complete transition table of `bst`: every step of every state leads where the table says and nowhere else. Entries of the
table are the spec's own decisions: the address match on seven bits D3 (log entry 12), the control bytes D4 (log entry 11), the
unknown opcode and the odd mode parameter to Idle D12 and D13 (log entry 13), what an edge is and which events commit a byte D5, D6
and D8 (log entry 23), the meaning of the five names D2 (log entry 23), `Setup` from a ready block D25 (log entry 26). -/
def Obligations.BusStateFollowsTheTransitionTable : Prop :=
  ∀ (s t : State) (e : Event) (rest : List Event), s.input = e :: rest → step s = .next t → t.bus.bst = bstAfter s e

/-- R95: any nine clock pulses that carry eight data levels, most significant first, with any data edges while the clock is low,
commit exactly the byte those levels spell, at the ninth rising edge. The commit on the rising edge is the spec's decision D6 (log
entry 23). -/
def Obligations.WireReconstructsEveryByte : Prop :=
  ∀ (s : State) (bits : List (List Bool × Bool)) (idle : List Bool) (rest : List Event),
    s.ready = true → s.bus.bst ≠ .idle → s.bus.cnt = 0 → s.bus.scl = false → bits.length = 8 →
    s.input = wireByte bits idle ++ rest →
    ∃ sda,
      Host.Core.run core (wireByte bits idle).length s =
        .next (commitByte (BitVec.ofNat 8 ((bits.map Prod.snd).foldl (fun n d => 2 * n + d.toNat) 0))
          { s with
            input := rest
            bus := { s.bus with
              scl := true, sda := sda, cnt := 0
              acc := BitVec.ofNat 8 ((bits.map Prod.snd).foldl (fun n d => 2 * n + d.toNat) 0) } })

/-- R96: from a state with `cnt` = 0 and the clock low (as BYTE requires) the pin path and the register path of one byte differ only
in `scl`, `sda`, `acc` and `dr`. That the sentinel write sends the latched byte through the commit of the ninth pulse is the spec's
decision D8 (log entry 23). -/
def Obligations.BothBytePathsAgree : Prop :=
  ∀ (s : State) (v : Byte), s.bus.cnt = 0 → s.bus.scl = false →
    ∃ t u, exec (.byte v) s = .next t ∧ exec (.fast v) s = .next u ∧
      t = { u with bus := { u.bus with scl := t.bus.scl, sda := t.bus.sda, acc := t.bus.acc, dr := t.bus.dr } }

/-- R16, R213: bits of the accumulator that are not yet (or no longer) part of a byte cannot be told apart by any step: two states
that differ only there step to two states that differ only there, with the same results. -/
def Obligations.StaleAccumulatorBitsAreUnobservable : Prop :=
  ∀ s t : State, sameButStaleBits s t →
    ∃ s' t', step s = .next s' ∧ step t = .next t' ∧ sameButStaleBits s' t'

/-! ### Script phrases -/

/-- R76, R6: a pseudo-instruction is the run of its expansion: delivering its events one step at a time leads where executing it
leads. The script is the spec's decision D27. -/
def Obligations.PseudoInstructionsRunTheirExpansion : Prop :=
  ∀ (s : State) (i : Instr) (es rest : List Event), encode s.cfg i = .script es → s.input = es ++ rest →
    ∃ t, exec i { s with input := rest } = .next t ∧ Host.Core.run core es.length s = .next t

/-- R76, R200: the phrases at the line levels they require, on a ready block, whatever the transaction and the counter. START and
RESTART open a transaction. The rising clock edge of RESTART, BIT and ACK samples the data level with fewer than eight bits in (R82),
commits the byte with eight (R83), and does nothing in Idle: so a BIT after eight bits is taken as the acknowledgement slot, and an
ACK before eight samples a 1. The commit on the rising edge is the spec's decision D6 (log entry 23), the phrases its decision D27
(log entry 20). -/
def Obligations.ScriptPhrasesOnTheLines : Prop :=
  ∀ s : State, s.ready = true →
    (s.bus.scl = true → s.bus.sda = true →
      exec .start s = .next { s with bus := { s.bus with scl := false, sda := false, bst := .started, cnt := 0 } }) ∧
    (s.bus.scl = false → s.bus.bst ≠ .idle → s.bus.cnt < 8 →
      exec .restart s = .next { s with bus := { s.bus with
        scl := false, sda := false, bst := .started, cnt := 0, acc := BitVec.ofNat 8 (2 * s.bus.acc.toNat + 1) } }) ∧
    (s.bus.scl = false → s.bus.bst ≠ .idle → 8 ≤ s.bus.cnt →
      ∃ u, u = commitByte s.bus.acc s ∧
        exec .restart s = .next { u with bus := { u.bus with scl := false, sda := false, bst := .started, cnt := 0 } }) ∧
    (s.bus.scl = false → s.bus.bst = .idle →
      exec .restart s = .next { s with bus := { s.bus with scl := false, sda := false, bst := .started, cnt := 0 } }) ∧
    (s.bus.scl = false → s.bus.bst ≠ .idle → s.bus.cnt < 8 → ∀ d,
      exec (.bit d) s = .next { s with bus := { s.bus with
        scl := false, sda := d, cnt := s.bus.cnt + 1, acc := BitVec.ofNat 8 (2 * s.bus.acc.toNat + d.toNat) } }) ∧
    (s.bus.scl = false → s.bus.bst ≠ .idle → 8 ≤ s.bus.cnt → ∀ d,
      exec (.bit d) s = .next (commitByte s.bus.acc { s with bus := { s.bus with scl := false, sda := d, cnt := 0 } })) ∧
    (s.bus.scl = false → s.bus.bst = .idle → ∀ d,
      exec (.bit d) s = .next { s with bus := { s.bus with scl := false, sda := d } }) ∧
    (s.bus.scl = false → s.bus.bst ≠ .idle → s.bus.cnt < 8 →
      exec .ack s = .next { s with bus := { s.bus with
        scl := false, sda := true, cnt := s.bus.cnt + 1, acc := BitVec.ofNat 8 (2 * s.bus.acc.toNat + 1) } }) ∧
    (s.bus.scl = false → s.bus.bst ≠ .idle → 8 ≤ s.bus.cnt →
      exec .ack s = .next (commitByte s.bus.acc { s with bus := { s.bus with scl := false, sda := true, cnt := 0 } })) ∧
    (s.bus.scl = false → s.bus.bst = .idle →
      exec .ack s = .next { s with bus := { s.bus with scl := false, sda := true } })

/-- R200: the stop sequence ends the transaction; its rising clock edge is a stray bit that does no harm at fewer than eight bits,
commits the accumulated byte at eight, and does nothing where no transaction is active. That the byte is committed there, and not
lost, is where the spec's decision D6 shows (R83; log entry 23). -/
def Obligations.StopSequenceCommitsAnUnacknowledgedByte : Prop :=
  ∀ s : State, s.ready = true → s.bus.scl = false →
    (s.bus.bst ≠ .idle → s.bus.cnt < 8 →
      exec .stop s = .next { s with bus := { s.bus with
        scl := true, sda := true, bst := .idle, cnt := 0, acc := BitVec.ofNat 8 (2 * s.bus.acc.toNat) } }) ∧
    (s.bus.bst ≠ .idle → s.bus.cnt = 8 →
      ∃ u, u = commitByte s.bus.acc s ∧
        exec .stop s = .next { u with bus := { u.bus with scl := true, sda := true, bst := .idle, cnt := 0 } }) ∧
    (s.bus.bst = .idle →
      exec .stop s = .next { s with bus := { s.bus with scl := true, sda := true, bst := .idle, cnt := 0 } })

/-- R82, R83, R91: BYTE v at a byte boundary and FAST v in any state of the transaction commit `v`. That FAST goes through the same
commit is the spec's decision D8, that BYTE commits on the rising edge of its ninth pulse its decision D6 (log entry 23). -/
def Obligations.ByteAndFastCommitTheirByte : Prop :=
  ∀ (s : State) (v : Byte), s.ready = true →
    (s.bus.scl = false → s.bus.bst ≠ .idle → s.bus.cnt = 0 →
      exec (.byte v) s = .next (commitByte v { s with bus := { s.bus with sda := true, acc := v } })) ∧
    exec (.fast v) s = .next (commitByte v { s with bus := { s.bus with dr := v, cnt := 0 } })

/-- R76, R88, R206: a whole transaction from lines high commits its bytes in order, each in the context the bytes before it left
(after a desync: to no effect), and ends in Idle with the lines high. -/
def Obligations.TransactionCommitsItsBytesInOrder : Prop :=
  ∀ (s : State) (bs : List Byte), s.ready = true → s.bus.scl = true → s.bus.sda = true →
    ∃ u acc, u = bs.foldl (fun v b => commitByte b v) { s with bus := { s.bus with bst := .started } } ∧
      exec (.txn bs) s = .next { u with bus := { u.bus with scl := true, sda := true, bst := .idle, cnt := 0, acc := acc } }

/-- R76, R89, R92, R94: a command transaction gives each byte to the command decoder, a data transaction stores each byte at the
cursor, in order. -/
def Obligations.CommandAndDataTransactions : Prop :=
  ∀ (s : State) (bs : List Byte), s.ready = true → s.bus.scl = true → s.bus.sda = true →
    (∃ u acc, u = bs.foldl (fun v b => commitByte b v) { s with bus := { s.bus with bst := .commandPhase } } ∧
      exec (.cmds bs) s = .next { u with bus := { u.bus with scl := true, sda := true, bst := .idle, cnt := 0, acc := acc } }) ∧
    (∃ u acc, runInstrs (bs.map .data) s = .next u ∧
      exec (.dataTxn bs) s = .next { u with bus := { u.bus with scl := true, sda := true, bst := .idle, cnt := 0, acc := acc } })

/-- R206, R171, R179: after a desync the bytes of the rest of the transaction are not sampled: any number of them changes nothing
but the level of the data line. -/
def Obligations.DesyncSilencesTheTransaction : Prop :=
  ∀ (bs : List Byte) (s : State), s.bus.bst = .idle → s.bus.scl = false → s.ready = true →
    ∃ sda, runInstrs (bs.map .byte) s = .next { s with bus := { s.bus with sda := sda } }

/-! ### Commands -/

/-- R100: in CommandPhase a pending parameter takes the next byte whatever its value; with none pending the byte is an opcode. -/
def Obligations.PendingParameterTakesTheNextByte : Prop :=
  ∀ (s : State) (b : Byte), s.bus.bst = .commandPhase →
    (s.disp.pend = .contrast → exec (.paramContrast b) s = .next (commitByte b s)) ∧
    (s.disp.pend = .memMode → exec (.paramMemMode b) s = .next (commitByte b s)) ∧
    (s.disp.pend = .skip → commitByte b s = { s with disp := { s.disp with pend := .none } }) ∧
    (s.disp.pend = .none → exec (decodeOpcode s.cfg.extCmds b) s = .next (commitByte b s))

/-- R102, R103, R68: SETLOWCOL replaces the low nibble of `col`, SETHIGHCOL the high part, whose nibble's top bit is dropped
(decision D14); the result is always within 0 to 127 and nothing else is written. -/
def Obligations.ColumnNibbleCommands : Prop :=
  ∀ (s : State) (n : BitVec 4),
    (∃ col : BitVec 7, col.toNat = s.disp.col.toNat / 16 * 16 + n.toNat ∧
      exec (.setLowCol n) s = .next { s with disp := { s.disp with col := col } }) ∧
    (∃ col : BitVec 7, col.toNat = n.toNat % 8 * 16 + s.disp.col.toNat % 16 ∧
      exec (.setHighCol n) s = .next { s with disp := { s.disp with col := col } })

/-- R107: the byte committed in CommandPhase while `pend` = Contrast is the level, every value legal, and the only effects are
`contrast` and `pend`: the framebuffer and the grid stay. -/
def Obligations.ContrastParameterSetsTheLevel : Prop :=
  ∀ (s : State) (v : Byte),
    exec (.paramContrast v) s = .next { s with disp := { s.disp with contrast := v, pend := .none } } ∧
    (s.bus.bst = .commandPhase → s.disp.pend = .contrast →
      commitByte v s = { s with disp := { s.disp with contrast := v, pend := .none } })

/-- R105, R69: the addressing-mode parameter clears `pend` in every case; bits 1:0 = 0 select Horizontal, 2 Page, and an odd value
desyncs with `mode` unchanged (the spec's decision D13). -/
def Obligations.ModeParameterSelectsOrDesyncs : Prop :=
  ∀ (s : State) (v : Byte),
    exec (.paramMemMode v) s = .next (
      if v.toNat % 4 = 0 then { s with disp := { s.disp with pend := .none, mode := .horizontal } }
      else if v.toNat % 4 = 2 then { s with disp := { s.disp with pend := .none, mode := .page } }
      else { s with disp := { s.disp with pend := .none }, bus := { s.bus with bst := .idle } })

/-- R112, R104, R106, R108 to R111: SETPAGE writes `page` only, in both addressing modes and with no flush; the first byte of a
two-byte setting writes `pend` only; each flag command writes its flag only, with the value its opcode carries (decision D10). -/
def Obligations.OneRegisterCommandsWriteTheirRegisterOnly : Prop :=
  ∀ s : State,
    (∀ p, exec (.setPage p) s = .next { s with disp := { s.disp with page := p } }) ∧
    exec .setMemMode s = .next { s with disp := { s.disp with pend := .memMode } } ∧
    exec .setContrast s = .next { s with disp := { s.disp with pend := .contrast } } ∧
    exec .segRemap0 s = .next { s with disp := { s.disp with segremap := false } } ∧
    exec .segRemap1 s = .next { s with disp := { s.disp with segremap := true } } ∧
    exec .normalDisplay s = .next { s with disp := { s.disp with inv := false } } ∧
    exec .invertDisplay s = .next { s with disp := { s.disp with inv := true } } ∧
    exec .displayOff s = .next { s with disp := { s.disp with on := false } } ∧
    exec .displayOn s = .next { s with disp := { s.disp with on := true } } ∧
    exec .comScanInc s = .next { s with disp := { s.disp with scandir := false } } ∧
    exec .comScanDec s = .next { s with disp := { s.disp with scandir := true } }

/-- R113, R114: an unknown opcode desyncs (decision D12); an extra command writes at most `pend`, to Skip when it has a parameter;
the skipped parameter only clears `pend`. -/
def Obligations.UnknownAndExtraCommands : Prop :=
  ∀ (s : State) (b : Byte),
    exec (.unrecognised b) s = .next { s with bus := { s.bus with bst := .idle } } ∧
    exec (.extCmd b false) s = .next s ∧
    exec (.extCmd b true) s = .next { s with disp := { s.disp with pend := .skip } } ∧
    exec (.paramSkip b) s = .next { s with disp := { s.disp with pend := .none } }

/-- R21, R205: a pending parameter outlives starts, stops, desyncs and data bytes: a step changes `pend` only if its event is
`Setup` or commits a byte in CommandPhase (the spec's decision D11). -/
def Obligations.PendingParameterOutlivesTheTransaction : Prop :=
  ∀ (s t : State) (e : Event) (rest : List Event), s.input = e :: rest → step s = .next t → t.disp.pend ≠ s.disp.pend →
    e = .setup ∨ (s.bus.bst = .commandPhase ∧ (committed s e).isSome)

/-! ### The data path, the grid, the renderer -/

/-- R130: a data byte is stored at the cursor and nowhere else, the column advances and wraps, the page advances and wraps at a
column wraparound in Horizontal mode only, and the grid is rebuilt (the byte just stored included) exactly at a page wraparound
under round-refresh. That the grid is rebuilt there only (R132) is the spec's decision D16, that bit `k` of a strip is row `8p + k`
(R43) its decision D15 (log entry 25). The framebuffer is in canonical form, which every step keeps. -/
def Obligations.DataByteStoresAndAdvances : Prop :=
  ∀ (s : State) (b : Byte), Memory.wf s.disp.fb →
    ∃ fb grid,
      exec (.data b) s = .next { s with disp := { s.disp with
        fb := fb
        grid := grid
        col := if s.disp.col = 127 then 0 else s.disp.col + 1
        page :=
          if s.disp.col = 127 ∧ s.disp.mode = .horizontal then (if s.disp.page = 7 then 0 else s.disp.page + 1)
          else s.disp.page } } ∧
      Memory.read fb (s.disp.page.toNat * 128 + s.disp.col.toNat) = b ∧
      (∀ a, a ≠ s.disp.page.toNat * 128 + s.disp.col.toNat → Memory.read fb a = Memory.read s.disp.fb a) ∧
      (if s.disp.col = 127 ∧ s.disp.mode = .horizontal ∧ s.disp.page = 7 ∧ s.disp.round = true then
        ∀ p < 8, ∀ c < 128, ∀ k < 8, (grid.toList.getD (8 * p + k) 0).getLsbD c = (Memory.read fb (p * 128 + c)).getLsbD k
      else grid = s.disp.grid)

/-- R28, R130, R115: a step changes a byte of the framebuffer only if its event is `Setup` or commits a byte in DataPhase, and then
only the byte at the cursor: every other address reads as before. -/
def Obligations.FramebufferBytesChangeOnlyAtTheCursor : Prop :=
  ∀ (s t : State) (e : Event) (rest : List Event) (a : Nat), Memory.wf s.disp.fb → s.input = e :: rest → e ≠ .setup →
    step s = .next t →
    (∀ b, committed s e = some b → s.bus.bst = .dataPhase → a = s.disp.page.toNat * 128 + s.disp.col.toNat →
      Memory.read t.disp.fb a = b) ∧
    (committed s e = none ∨ s.bus.bst ≠ .dataPhase ∨ a ≠ s.disp.page.toNat * 128 + s.disp.col.toNat →
      Memory.read t.disp.fb a = Memory.read s.disp.fb a)

/-- R131: any number of data bytes takes the linear cursor position forward modulo 1024 in Horizontal mode, and the column forward
modulo 128 with the page fixed in Page mode. -/
def Obligations.CursorLawOfDataBytes : Prop :=
  ∀ (ds : List Byte) (s : State), ∃ t, runInstrs (ds.map .data) s = .next t ∧
    (s.disp.mode = .horizontal → cursorPosition t = (cursorPosition s + ds.length) % 1024) ∧
    (s.disp.mode = .page → t.disp.page = s.disp.page ∧ t.disp.col.toNat = (s.disp.col.toNat + ds.length) % 128)

/-- R132, R43, R55: after a flush every grid bit equals its framebuffer bit (bit 0 of a strip on top, decision D15), nothing else
is written, and a second flush changes nothing. -/
def Obligations.FlushCopiesTheFramebuffer : Prop :=
  ∀ d : Display,
    (∀ p < 8, ∀ c < 128, ∀ k < 8, gridBit (flush d) (8 * p + k) c = (fbByte d p c).getLsbD k) ∧
    flush d = { d with grid := (flush d).grid } ∧ flush (flush d) = flush d

/-- R52, R132: the grid changes at exactly two places beside `Setup`: an accepted frame tick under frame-refresh, and a data byte at
the last column of the last page in Horizontal mode under round-refresh. That it is rebuilt there and nowhere else is the spec's
decision D16 on the conflict C2 (log entry 25). -/
def Obligations.GridChangesOnlyAtAFlush : Prop :=
  ∀ (s t : State) (e : Event) (rest : List Event), s.input = e :: rest → step s = .next t → t.disp.grid ≠ s.disp.grid →
    e = .setup ∨
    (∃ target, e = .frameTick target ∧ s.ready = true ∧ 8192 ≤ target.length ∧ s.disp.round = false) ∨
    ((committed s e).isSome ∧ s.bus.bst = .dataPhase ∧ s.disp.mode = .horizontal ∧ s.disp.page = 7 ∧ s.disp.col = 127 ∧
      s.disp.round = true)

/-- R133: `SetRefreshTiming` on a ready block writes `round` and gives back true; on a block that is not ready it changes nothing
and gives back false. It neither flushes nor touches the framebuffer or the grid. -/
def Obligations.SetRefreshTimingWritesRoundOnly : Prop :=
  ∀ (s : State) (r : Bool),
    (s.ready = true →
      exec (.setRefreshTiming r) s = .next { s with disp := { s.disp with round := r }, results := s.results ++ [.timing true] }) ∧
    (s.ready = false → exec (.setRefreshTiming r) s = .next { s with results := s.results ++ [.timing false] })

/-- R134: a frame tick on a ready block with a target of at least 8192 elements flushes under frame-refresh (and only then), renders
into the target and gives back true, with the display off too (decision D19); with a shorter target nothing changes, no flush
happens, and false comes back with the target untouched. -/
def Obligations.FrameTickFlushesAndRenders : Prop :=
  ∀ (s : State) (target : List Pixel), s.ready = true →
    (8192 ≤ target.length →
      exec (.frameTick target) s = .next { s with
        disp := if s.disp.round = true then s.disp else flush s.disp
        results := s.results ++ [.frame true (render (if s.disp.round = true then s.disp else flush s.disp) target)] }) ∧
    (target.length < 8192 → exec (.frameTick target) s = .next { s with results := s.results ++ [.frame false target] })

/-- R135, R136, R137, R45: with the display on each of the 64 x 128 pixels is the opaque gray of the contrast or the transparent
word, according to the (mirrored) grid bit and the inversion, no element beyond 8191 is written and the length stays; with the
display off the target is untouched. The colours and the mirroring are the spec's decisions D17 and D18. -/
def Obligations.RenderedPixelsFollowTheGrid : Prop :=
  ∀ (d : Display) (target : List Pixel), 8192 ≤ target.length →
    (d.on = false → render d target = target) ∧
    (d.on = true →
      (render d target).length = target.length ∧
      (∀ y < 64, ∀ x < 128, (render d target)[y * 128 + x]? = some (
        if (gridBit d (if d.scandir then 63 - y else y) (if d.segremap then 127 - x else x) != d.inv) = true then
          BitVec.ofNat 32 (0xFF000000 + (128 + d.contrast.toNat / 2) * 0x10101)
        else 0x00000000)) ∧
      (∀ i, 8192 ≤ i → (render d target)[i]? = target[i]?))

/-- R138: from an empty framebuffer and grid, with the display on, no inversion, no mirroring, frame-refresh, one data byte and a
frame tick show exactly that byte's bits at the cursor where it was stored. The positions rest on the spec's decision D15, the pixel
words on its decision D17 (log entry 25). -/
def Obligations.DataByteRoundTripsToPixels : Prop :=
  ∀ (s : State) (b : Byte) (target : List Pixel),
    s.ready = true → s.disp.fb = [] → s.disp.grid = Vector.replicate 64 0 → s.disp.on = true → s.disp.inv = false →
    s.disp.segremap = false → s.disp.scandir = false → s.disp.round = false → 8192 ≤ target.length →
    ∃ t shown, runInstrs [.data b, .frameTick target] s = .next t ∧ t.results = s.results ++ [.frame true shown] ∧
      ∀ y < 64, ∀ x < 128, shown[y * 128 + x]? = some (
        if x = s.disp.col.toNat ∧ y / 8 = s.disp.page.toNat ∧ b.getLsbD (y % 8) = true then
          BitVec.ofNat 32 (0xFF000000 + (128 + s.disp.contrast.toNat / 2) * 0x10101)
        else 0x00000000)

/-! ### Audio -/

/-- R150, R151: where `now` is no earlier than `tlast` and no sum passes 2^64, a toggle event adds the cycles since the last one to
`tot`, and to `high` iff the line was high during them, then stores the time and the level (the explicit time is decision D1). -/
def Obligations.ToggleAccumulatesTheInterval : Prop :=
  ∀ (s : State) (level : Bool) (now : Cycle), s.ready = true → s.audio.tlast.toNat ≤ now.toNat →
    s.audio.tot.toNat + (now.toNat - s.audio.tlast.toNat) < 2 ^ 64 →
    s.audio.high.toNat + (now.toNat - s.audio.tlast.toNat) < 2 ^ 64 →
    ∃ tot high : Cycle,
      tot.toNat = s.audio.tot.toNat + (now.toNat - s.audio.tlast.toNat) ∧
      high.toNat = (if s.audio.tog then s.audio.high.toNat + (now.toNat - s.audio.tlast.toNat) else s.audio.high.toNat) ∧
      exec (.toggleEdge level now) s = .next { s with audio := { s.audio with
        tog := level, tlast := now, tot := tot, high := high } }

/-- R150, U8: where `now` is earlier than `tlast` the event still stores the time and the level and leaves the samples alone; the
totals are free values (the model's choice, log entry 14), and nothing outside the AUDIO sub-block changes. -/
def Obligations.UntimelyToggleCompletes : Prop :=
  ∀ (s : State) (level : Bool) (now : Cycle), s.ready = true → now.toNat < s.audio.tlast.toNat →
    ∃ tot high : Cycle,
      exec (.toggleEdge level now) s = .next { s with
        fresh := s.fresh + 1
        audio := { s.audio with tog := level, tlast := now, tot := tot, high := high } } ∧
      (s.audio.tog = false → high = s.audio.high)

/-- R153, R154: a tick with cycles in the window appends `AUDIO_BASE + high * AUDIO_AMP / tot`, the product first and the quotient
rounded down (decision D21), and clears both accumulators; `tog` and `tlast` stay. -/
def Obligations.SampleTickAppendsTheSample : Prop :=
  ∀ s : State, s.ready = true → 0 < s.audio.tot.toNat → s.audio.high.toNat ≤ s.audio.tot.toNat →
    s.cfg.audioBase.toNat + s.cfg.audioAmp.toNat ≤ 255 → s.audio.abuf.length < 2048 →
    ∃ b : Byte,
      b.toNat = s.cfg.audioBase.toNat + s.audio.high.toNat * s.cfg.audioAmp.toNat / s.audio.tot.toNat ∧
      s.cfg.audioBase.toNat ≤ b.toNat ∧ b.toNat ≤ s.cfg.audioBase.toNat + s.cfg.audioAmp.toNat ∧
      exec .sampleTick s = .next { s with audio := { s.audio with tot := 0, high := 0, abuf := s.audio.abuf ++ [b] } }

/-- R155, R156: an empty window appends nothing, and a full buffer (of 2048 samples, decision D22) drops the sample; both clear the
accumulators and leave the buffer as it was. -/
def Obligations.EmptyWindowsAndFullBuffersAppendNothing : Prop :=
  ∀ s : State, s.ready = true →
    (s.audio.tot = 0 → exec .sampleTick s = .next { s with audio := { s.audio with tot := 0, high := 0 } }) ∧
    (s.audio.tot ≠ 0 → 2048 ≤ s.audio.abuf.length →
      ∃ fresh, exec .sampleTick s = .next { s with fresh := fresh, audio := { s.audio with tot := 0, high := 0 } })

/-- R157, R56: a read with a target of at least 2048 bytes copies every sample, oldest first, drains the buffer, leaves the rest of
the target and gives back the count; a shorter target gives back 0 with target and samples kept (decision D22). -/
def Obligations.ReadAudioDrainsInOrder : Prop :=
  ∀ (s : State) (target : List Byte), s.ready = true →
    (2048 ≤ target.length → s.audio.abuf.length ≤ 2048 →
      ∃ after : List Byte, after.length = target.length ∧
        (∀ i < s.audio.abuf.length, after[i]? = s.audio.abuf[i]?) ∧
        (∀ i, s.audio.abuf.length ≤ i → after[i]? = target[i]?) ∧
        exec (.readAudio target) s = .next { s with
          audio := { s.audio with abuf := [] }
          results := s.results ++ [.audio s.audio.abuf.length after] }) ∧
    (target.length < 2048 → exec (.readAudio target) s = .next { s with results := s.results ++ [.audio 0 target] })

/-- R158: a line high for the first half of a window of `2 * w` cycles and low for the second, with toggle events at its start, its
middle and its end, gives the sample `AUDIO_BASE + AUDIO_AMP / 2`. The source says so "within integer rounding"; that the value is
rounded down is the spec's decision D21, that cycles are credited at toggle events only its decision D20 (log entry 16). -/
def Obligations.HalfWindowGivesHalfAmplitude : Prop :=
  ∀ (s : State) (t0 t1 t2 : Cycle) (w : Nat), s.ready = true → 0 < w →
    s.audio.tlast = t0 → s.audio.tot = 0 → s.audio.high = 0 →
    t1.toNat = t0.toNat + w → t2.toNat = t0.toNat + 2 * w →
    s.cfg.audioBase.toNat + s.cfg.audioAmp.toNat ≤ 255 → s.audio.abuf.length < 2048 →
    ∃ b : Byte, b.toNat = s.cfg.audioBase.toNat + s.cfg.audioAmp.toNat / 2 ∧
      runInstrs [.toggleEdge true t0, .toggleEdge false t1, .toggleEdge true t2, .sampleTick] s =
        .next { s with audio := { tog := true, tlast := t2, tot := 0, high := 0, abuf := s.audio.abuf ++ [b] } }

/-! ### The whole machine -/

/-- R38: which event may write which component: a component not listed for an event is unchanged by it. The bus events write `bst` and
the DISPLAY sub-block only as `commitByte` does. `commitByte` in CommandPhase
writes no framebuffer byte and no grid bit, in DataPhase no display register but the cursor, and only a desync takes it out of
CommandPhase. The model's own `results` and `fresh` are named where an event writes them. -/
def Obligations.AccessTable : Prop :=
  ∀ s t : State,
    (exec .teardown s = .next t → t = { s with ready := t.ready }) ∧
    (∀ l, exec (.sclEdge l) s = .next t →
      t = { s with
        disp := t.disp
        bus := { s.bus with scl := t.bus.scl, acc := t.bus.acc, cnt := t.bus.cnt, bst := t.bus.bst } } ∧
      (committed s (.sclEdge l) = none → t.disp = s.disp ∧ t.bus.bst = s.bus.bst) ∧
      (∀ b, committed s (.sclEdge l) = some b → t.disp = (commitByte b s).disp ∧ t.bus.bst = (commitByte b s).bus.bst)) ∧
    (∀ l, exec (.sdaEdge l) s = .next t →
      t = { s with bus := { s.bus with sda := t.bus.sda, bst := t.bus.bst, cnt := t.bus.cnt } }) ∧
    (∀ v, exec (.regWriteData v) s = .next t → t = { s with bus := { s.bus with dr := t.bus.dr } }) ∧
    (∀ v, exec (.regWriteStatus v) s = .next t →
      t = { s with disp := t.disp, bus := { s.bus with cnt := t.bus.cnt, bst := t.bus.bst } } ∧
      (committed s (.regWrite .status v) = none → t = s) ∧
      (∀ b, committed s (.regWrite .status v) = some b →
        t.disp = (commitByte b s).disp ∧ t.bus.bst = (commitByte b s).bus.bst)) ∧
    (∀ b, s.bus.bst = .commandPhase → commitByte b s = t →
      t = { s with
        bus := { s.bus with bst := t.bus.bst }
        disp := { s.disp with
          pend := t.disp.pend, mode := t.disp.mode, page := t.disp.page, col := t.disp.col, contrast := t.disp.contrast
          on := t.disp.on, inv := t.disp.inv, segremap := t.disp.segremap, scandir := t.disp.scandir } } ∧
      (t.bus.bst ≠ .commandPhase → t.bus.bst = .idle)) ∧
    (∀ b, s.bus.bst = .dataPhase → commitByte b s = t →
      t = { s with disp := { s.disp with fb := t.disp.fb, page := t.disp.page, col := t.disp.col, grid := t.disp.grid } } ∧
      (s.disp.round = false → t.disp.grid = s.disp.grid)) ∧
    (∀ b, s.bus.bst ≠ .commandPhase → s.bus.bst ≠ .dataPhase → commitByte b s = t →
      t = { s with bus := { s.bus with bst := t.bus.bst } }) ∧
    (∀ r, exec (.setRefreshTiming r) s = .next t →
      t = { s with results := t.results, disp := { s.disp with round := t.disp.round } }) ∧
    (∀ target, exec (.frameTick target) s = .next t →
      t = { s with results := t.results, disp := { s.disp with grid := t.disp.grid } } ∧
      (s.disp.round = true → t.disp.grid = s.disp.grid)) ∧
    (∀ l now, exec (.toggleEdge l now) s = .next t →
      t = { s with
        fresh := t.fresh
        audio := { s.audio with tog := t.audio.tog, tlast := t.audio.tlast, tot := t.audio.tot, high := t.audio.high } }) ∧
    (exec .sampleTick s = .next t →
      t = { s with
        fresh := t.fresh
        audio := { s.audio with tot := t.audio.tot, high := t.audio.high, abuf := t.audio.abuf } }) ∧
    (∀ target, exec (.readAudio target) s = .next t →
      t = { s with results := t.results, audio := { s.audio with abuf := t.audio.abuf } })

/-- R38, R51: AUDIO is independent of BUS and DISPLAY: each of the three audio events (R150, R153, R157) and a bus event give the same
state, and the same results, in either order. -/
def Obligations.AudioAndBusEventsCommute : Prop :=
  ∀ (s : State) (a b : Instr),
    (a = .sampleTick ∨ (∃ l now, a = .toggleEdge l now) ∨ ∃ target, a = .readAudio target) →
    ((∃ l, b = .sclEdge l) ∨ (∃ l, b = .sdaEdge l) ∨ (∃ v, b = .regWriteData v) ∨ (∃ v, b = .regWriteStatus v)) →
    ∃ t, runInstrs [a, b] s = .next t ∧ runInstrs [b, a] s = .next t

/-- R37: every step keeps the counter's range, the canonical framebuffer, the bound of the audio buffer, and that Skip is pending
only with extra commands. -/
def Obligations.StepKeepsTheInvariant : Prop :=
  ∀ s t : State, s.Inv → step s = .next t → t.Inv

/-- R37: while the platform's timestamps never decrease, every step keeps `high <= tot`, totals within the time that has passed, and
every sample between `AUDIO_BASE` and `AUDIO_BASE + AUDIO_AMP`. -/
def Obligations.StepKeepsTheAudioInvariant : Prop :=
  ∀ s t : State, s.AudioInv → s.timely → step s = .next t → t.AudioInv

/-- R37 at reset: both invariants hold there, whatever the open parameters are within the bound of R4. -/
def Obligations.ResetMeetsTheInvariants : Prop :=
  State.reset.Inv ∧ State.reset.AudioInv
end

