-- ==== Sys2Proof/Laws/Memory.lean ====
section
/-! SUPPORT. The framebuffer space: a read after a write, the canonical form every operation keeps, and equal memories as equal
lists. -/

namespace Sys2Proof.Machine

@[simp] theorem Memory.read_nil (a : Nat) : Memory.read [] a = 0 := rfl

theorem Memory.read_cons (k : Nat) (v : Byte) (m : List Host.Cell) (a : Nat) :
    Memory.read ((k, v) :: m) a = if k = a then v else Memory.read m a := rfl

theorem Memory.wf_nil : Memory.wf [] := by simp [Memory.wf]

theorem Memory.wf_tail {c : Host.Cell} {m : List Host.Cell} (h : Memory.wf (c :: m)) : Memory.wf m :=
  ⟨(List.pairwise_cons.mp h.1).2, fun x hx => h.2 x (List.mem_cons_of_mem _ hx)⟩

/-- An address below every listed one reads as an unlisted address does. -/
theorem Memory.read_below {m : List Host.Cell} {a : Nat} (h : ∀ c ∈ m, a < c.1) : Memory.read m a = 0 := by
  induction m with
  | nil => rfl
  | cons c m ih =>
    have hc := h c List.mem_cons_self
    rw [show c = (c.1, c.2) from rfl, Memory.read_cons, if_neg (by omega)]
    exact ih fun x hx => h x (List.mem_cons_of_mem _ hx)

/-- What is listed after a write is the written cell or was listed before. -/
theorem Memory.mem_write {m : List Host.Cell} {a : Nat} {b : Byte} {c : Host.Cell} (h : c ∈ Memory.write m a b) :
    (c = (a, b) ∧ b ≠ 0) ∨ c ∈ m := by
  induction m with
  | nil =>
    simp only [Memory.write] at h
    split at h
    · cases h
    · rename_i hb; exact .inl ⟨List.mem_singleton.mp h, hb⟩
  | cons d m ih =>
    obtain ⟨k, v⟩ := d
    simp only [Memory.write] at h
    split at h
    · split at h
      · exact .inr h
      · rename_i hb
        rcases List.mem_cons.mp h with h | h
        · exact .inl ⟨h, hb⟩
        · exact .inr h
    · split at h
      · split at h
        · exact .inr (List.mem_cons_of_mem _ h)
        · rename_i hb
          rcases List.mem_cons.mp h with h | h
          · exact .inl ⟨h, hb⟩
          · exact .inr (List.mem_cons_of_mem _ h)
      · rcases List.mem_cons.mp h with h | h
        · exact .inr (h ▸ List.mem_cons_self)
        · exact (ih h).imp id (List.mem_cons_of_mem _)

/-- A write to an address of FB keeps the canonical form. -/
theorem Memory.wf_write {m : List Host.Cell} {a : Nat} {b : Byte} (hm : Memory.wf m) (ha : a < fbSize) :
    Memory.wf (Memory.write m a b) := by
  refine ⟨?_, fun c hc => ?_⟩
  · induction m with
    | nil => simp only [Memory.write]; split <;> simp
    | cons d m ih =>
      obtain ⟨k, v⟩ := d
      have ht := Memory.wf_tail hm
      have hp := List.pairwise_cons.mp hm.1
      simp only [Memory.write]
      split
      · rename_i hak
        split
        · exact hm.1
        · refine List.pairwise_cons.mpr ⟨fun c hc => ?_, hm.1⟩
          rcases List.mem_cons.mp hc with rfl | hc
          · exact hak
          · exact lt_trans hak (hp.1 c hc)
      · rename_i hak
        split
        · rename_i he
          subst he
          split
          · exact ht.1
          · exact List.pairwise_cons.mpr ⟨fun c hc => hp.1 c hc, ht.1⟩
        · rename_i hne
          refine List.pairwise_cons.mpr ⟨fun c hc => ?_, ih ht⟩
          rcases Memory.mem_write hc with ⟨rfl, _⟩ | hc
          · show k < a; omega
          · exact hp.1 c hc
  · rcases Memory.mem_write hc with ⟨rfl, hb⟩ | hc
    · exact ⟨ha, hb⟩
    · exact hm.2 c hc

/-- A read after a write: the byte written at its address, every other address as before. -/
theorem Memory.read_write {m : List Host.Cell} (hm : Memory.wf m) (a x : Nat) (b : Byte) :
    Memory.read (Memory.write m a b) x = if x = a then b else Memory.read m x := by
  induction m with
  | nil =>
    simp only [Memory.write]
    by_cases hx : x = a
    · split
      · rename_i hb; simp [hb]
      · simp [Memory.read_cons, hx]
    · rw [if_neg hx]
      split
      · rfl
      · rw [Memory.read_cons, if_neg (Ne.symm hx)]
  | cons d m ih =>
    obtain ⟨k, v⟩ := d
    have ht := Memory.wf_tail hm
    have hp := (List.pairwise_cons.mp hm.1).1
    simp only [Memory.write]
    split
    · rename_i hak
      by_cases hx : x = a
      · subst hx
        have h0 : Memory.read ((k, v) :: m) x = 0 := by
          apply Memory.read_below
          intro c hc
          rcases List.mem_cons.mp hc with rfl | hc
          · exact hak
          · exact lt_trans hak (hp c hc)
        split
        · rename_i hb; simp [hb, h0]
        · simp [Memory.read_cons x]
      · rw [if_neg hx]
        split
        · rfl
        · rw [Memory.read_cons a, if_neg (Ne.symm hx)]
    · split
      · rename_i he
        subst he
        by_cases hx : x = a
        · subst hx
          split
          · rename_i hb; simp [hb, Memory.read_below hp]
          · simp [Memory.read_cons]
        · rw [if_neg hx]
          split
          · rw [Memory.read_cons, if_neg (Ne.symm hx)]
          · rw [Memory.read_cons, Memory.read_cons, if_neg (Ne.symm hx), if_neg (Ne.symm hx)]
      · rename_i hne
        rw [Memory.read_cons, Memory.read_cons, ih ht]
        by_cases hk : k = x
        · subst hk; simp [Ne.symm hne]
        · simp [hk]

/-- Canonical memories that read alike are the same list. -/
theorem Memory.eq_of_read {m m' : List Host.Cell} (hm : Memory.wf m) (hm' : Memory.wf m')
    (h : ∀ a, Memory.read m a = Memory.read m' a) : m = m' := by
  induction m generalizing m' with
  | nil =>
    cases m' with
    | nil => rfl
    | cons c m' =>
      obtain ⟨k, v⟩ := c
      have := h k
      simp [Memory.read_cons] at this
      exact absurd this.symm (hm'.2 (k, v) List.mem_cons_self).2
  | cons c m ih =>
    obtain ⟨k, v⟩ := c
    have hv : v ≠ 0 := (hm.2 (k, v) List.mem_cons_self).2
    cases m' with
    | nil =>
      have := h k
      simp [Memory.read_cons] at this
      exact absurd this hv
    | cons c' m' =>
      obtain ⟨k', v'⟩ := c'
      have hv' : v' ≠ 0 := (hm'.2 (k', v') List.mem_cons_self).2
      have hp := (List.pairwise_cons.mp hm.1).1
      have hp' := (List.pairwise_cons.mp hm'.1).1
      have hkk : k = k' := by
        rcases lt_trichotomy k k' with hlt | heq | hlt
        · have hk := h k
          rw [Memory.read_cons, if_pos rfl, Memory.read_below] at hk
          · exact absurd hk hv
          · intro x hx
            rcases List.mem_cons.mp hx with rfl | hx
            · exact hlt
            · exact lt_trans hlt (hp' x hx)
        · exact heq
        · have hk := h k'
          rw [Memory.read_cons k', if_pos rfl, Memory.read_below] at hk
          · exact absurd hk.symm hv'
          · intro x hx
            rcases List.mem_cons.mp hx with rfl | hx
            · exact hlt
            · exact lt_trans hlt (hp x hx)
      subst hkk
      have hvv : v = v' := by simpa [Memory.read_cons] using h k
      subst hvv
      congr 1
      refine ih (Memory.wf_tail hm) (Memory.wf_tail hm') fun a => ?_
      by_cases ha : k = a
      · subst ha
        rw [Memory.read_below hp, Memory.read_below hp']
      · simpa [Memory.read_cons, ha] using h a

theorem fbAddress_lt (page : BitVec 3) (col : BitVec 7) : fbAddress page col < fbSize := by
  have := page.isLt; have := col.isLt
  simp only [fbAddress, fbCols, fbSize]; omega

/-- The framebuffer at reset is in canonical form. -/
theorem reset_fb_wf : Memory.wf State.reset.disp.fb := Memory.wf_nil

end Sys2Proof.Machine
end

