-- ==== Sys2Proof/Laws/State.lean ====
section
/-! SUPPORT. What each named update of the state leaves in each field. -/

namespace Sys2Proof.Machine

/-! ### Bus -/

@[simp] theorem Bus.setScl_scl (b : Bus) (x : Bool) : (b.setScl x).scl = x := rfl
@[simp] theorem Bus.setScl_sda (b : Bus) (x : Bool) : (b.setScl x).sda = b.sda := rfl
@[simp] theorem Bus.setScl_bst (b : Bus) (x : Bool) : (b.setScl x).bst = b.bst := rfl
@[simp] theorem Bus.setScl_cnt (b : Bus) (x : Bool) : (b.setScl x).cnt = b.cnt := rfl
@[simp] theorem Bus.setScl_acc (b : Bus) (x : Bool) : (b.setScl x).acc = b.acc := rfl
@[simp] theorem Bus.setScl_dr (b : Bus) (x : Bool) : (b.setScl x).dr = b.dr := rfl
@[simp] theorem Bus.setSda_scl (b : Bus) (x : Bool) : (b.setSda x).scl = b.scl := rfl
@[simp] theorem Bus.setSda_sda (b : Bus) (x : Bool) : (b.setSda x).sda = x := rfl
@[simp] theorem Bus.setSda_bst (b : Bus) (x : Bool) : (b.setSda x).bst = b.bst := rfl
@[simp] theorem Bus.setSda_cnt (b : Bus) (x : Bool) : (b.setSda x).cnt = b.cnt := rfl
@[simp] theorem Bus.setSda_acc (b : Bus) (x : Bool) : (b.setSda x).acc = b.acc := rfl
@[simp] theorem Bus.setSda_dr (b : Bus) (x : Bool) : (b.setSda x).dr = b.dr := rfl
@[simp] theorem Bus.setBst_scl (b : Bus) (x : BusState) : (b.setBst x).scl = b.scl := rfl
@[simp] theorem Bus.setBst_sda (b : Bus) (x : BusState) : (b.setBst x).sda = b.sda := rfl
@[simp] theorem Bus.setBst_bst (b : Bus) (x : BusState) : (b.setBst x).bst = x := rfl
@[simp] theorem Bus.setBst_cnt (b : Bus) (x : BusState) : (b.setBst x).cnt = b.cnt := rfl
@[simp] theorem Bus.setBst_acc (b : Bus) (x : BusState) : (b.setBst x).acc = b.acc := rfl
@[simp] theorem Bus.setBst_dr (b : Bus) (x : BusState) : (b.setBst x).dr = b.dr := rfl
@[simp] theorem Bus.setCnt_scl (b : Bus) (x : Nat) : (b.setCnt x).scl = b.scl := rfl
@[simp] theorem Bus.setCnt_sda (b : Bus) (x : Nat) : (b.setCnt x).sda = b.sda := rfl
@[simp] theorem Bus.setCnt_bst (b : Bus) (x : Nat) : (b.setCnt x).bst = b.bst := rfl
@[simp] theorem Bus.setCnt_cnt (b : Bus) (x : Nat) : (b.setCnt x).cnt = x := rfl
@[simp] theorem Bus.setCnt_acc (b : Bus) (x : Nat) : (b.setCnt x).acc = b.acc := rfl
@[simp] theorem Bus.setCnt_dr (b : Bus) (x : Nat) : (b.setCnt x).dr = b.dr := rfl
@[simp] theorem Bus.setAcc_scl (b : Bus) (x : Byte) : (b.setAcc x).scl = b.scl := rfl
@[simp] theorem Bus.setAcc_sda (b : Bus) (x : Byte) : (b.setAcc x).sda = b.sda := rfl
@[simp] theorem Bus.setAcc_bst (b : Bus) (x : Byte) : (b.setAcc x).bst = b.bst := rfl
@[simp] theorem Bus.setAcc_cnt (b : Bus) (x : Byte) : (b.setAcc x).cnt = b.cnt := rfl
@[simp] theorem Bus.setAcc_acc (b : Bus) (x : Byte) : (b.setAcc x).acc = x := rfl
@[simp] theorem Bus.setAcc_dr (b : Bus) (x : Byte) : (b.setAcc x).dr = b.dr := rfl
@[simp] theorem Bus.setDr_scl (b : Bus) (x : Byte) : (b.setDr x).scl = b.scl := rfl
@[simp] theorem Bus.setDr_sda (b : Bus) (x : Byte) : (b.setDr x).sda = b.sda := rfl
@[simp] theorem Bus.setDr_bst (b : Bus) (x : Byte) : (b.setDr x).bst = b.bst := rfl
@[simp] theorem Bus.setDr_cnt (b : Bus) (x : Byte) : (b.setDr x).cnt = b.cnt := rfl
@[simp] theorem Bus.setDr_acc (b : Bus) (x : Byte) : (b.setDr x).acc = b.acc := rfl
@[simp] theorem Bus.setDr_dr (b : Bus) (x : Byte) : (b.setDr x).dr = x := rfl

/-! ### Display -/

@[simp] theorem Display.setMode_mode (d : Display) (x : AddrMode) : (d.setMode x).mode = x := rfl
@[simp] theorem Display.setMode_page (d : Display) (x : AddrMode) : (d.setMode x).page = d.page := rfl
@[simp] theorem Display.setMode_col (d : Display) (x : AddrMode) : (d.setMode x).col = d.col := rfl
@[simp] theorem Display.setMode_pend (d : Display) (x : AddrMode) : (d.setMode x).pend = d.pend := rfl
@[simp] theorem Display.setMode_contrast (d : Display) (x : AddrMode) : (d.setMode x).contrast = d.contrast := rfl
@[simp] theorem Display.setMode_on (d : Display) (x : AddrMode) : (d.setMode x).on = d.on := rfl
@[simp] theorem Display.setMode_inv (d : Display) (x : AddrMode) : (d.setMode x).inv = d.inv := rfl
@[simp] theorem Display.setMode_segremap (d : Display) (x : AddrMode) : (d.setMode x).segremap = d.segremap := rfl
@[simp] theorem Display.setMode_scandir (d : Display) (x : AddrMode) : (d.setMode x).scandir = d.scandir := rfl
@[simp] theorem Display.setMode_round (d : Display) (x : AddrMode) : (d.setMode x).round = d.round := rfl
@[simp] theorem Display.setMode_fb (d : Display) (x : AddrMode) : (d.setMode x).fb = d.fb := rfl
@[simp] theorem Display.setMode_grid (d : Display) (x : AddrMode) : (d.setMode x).grid = d.grid := rfl
@[simp] theorem Display.setPage_mode (d : Display) (x : BitVec 3) : (d.setPage x).mode = d.mode := rfl
@[simp] theorem Display.setPage_page (d : Display) (x : BitVec 3) : (d.setPage x).page = x := rfl
@[simp] theorem Display.setPage_col (d : Display) (x : BitVec 3) : (d.setPage x).col = d.col := rfl
@[simp] theorem Display.setPage_pend (d : Display) (x : BitVec 3) : (d.setPage x).pend = d.pend := rfl
@[simp] theorem Display.setPage_contrast (d : Display) (x : BitVec 3) : (d.setPage x).contrast = d.contrast := rfl
@[simp] theorem Display.setPage_on (d : Display) (x : BitVec 3) : (d.setPage x).on = d.on := rfl
@[simp] theorem Display.setPage_inv (d : Display) (x : BitVec 3) : (d.setPage x).inv = d.inv := rfl
@[simp] theorem Display.setPage_segremap (d : Display) (x : BitVec 3) : (d.setPage x).segremap = d.segremap := rfl
@[simp] theorem Display.setPage_scandir (d : Display) (x : BitVec 3) : (d.setPage x).scandir = d.scandir := rfl
@[simp] theorem Display.setPage_round (d : Display) (x : BitVec 3) : (d.setPage x).round = d.round := rfl
@[simp] theorem Display.setPage_fb (d : Display) (x : BitVec 3) : (d.setPage x).fb = d.fb := rfl
@[simp] theorem Display.setPage_grid (d : Display) (x : BitVec 3) : (d.setPage x).grid = d.grid := rfl
@[simp] theorem Display.setCol_mode (d : Display) (x : BitVec 7) : (d.setCol x).mode = d.mode := rfl
@[simp] theorem Display.setCol_page (d : Display) (x : BitVec 7) : (d.setCol x).page = d.page := rfl
@[simp] theorem Display.setCol_col (d : Display) (x : BitVec 7) : (d.setCol x).col = x := rfl
@[simp] theorem Display.setCol_pend (d : Display) (x : BitVec 7) : (d.setCol x).pend = d.pend := rfl
@[simp] theorem Display.setCol_contrast (d : Display) (x : BitVec 7) : (d.setCol x).contrast = d.contrast := rfl
@[simp] theorem Display.setCol_on (d : Display) (x : BitVec 7) : (d.setCol x).on = d.on := rfl
@[simp] theorem Display.setCol_inv (d : Display) (x : BitVec 7) : (d.setCol x).inv = d.inv := rfl
@[simp] theorem Display.setCol_segremap (d : Display) (x : BitVec 7) : (d.setCol x).segremap = d.segremap := rfl
@[simp] theorem Display.setCol_scandir (d : Display) (x : BitVec 7) : (d.setCol x).scandir = d.scandir := rfl
@[simp] theorem Display.setCol_round (d : Display) (x : BitVec 7) : (d.setCol x).round = d.round := rfl
@[simp] theorem Display.setCol_fb (d : Display) (x : BitVec 7) : (d.setCol x).fb = d.fb := rfl
@[simp] theorem Display.setCol_grid (d : Display) (x : BitVec 7) : (d.setCol x).grid = d.grid := rfl
@[simp] theorem Display.setPend_mode (d : Display) (x : Pending) : (d.setPend x).mode = d.mode := rfl
@[simp] theorem Display.setPend_page (d : Display) (x : Pending) : (d.setPend x).page = d.page := rfl
@[simp] theorem Display.setPend_col (d : Display) (x : Pending) : (d.setPend x).col = d.col := rfl
@[simp] theorem Display.setPend_pend (d : Display) (x : Pending) : (d.setPend x).pend = x := rfl
@[simp] theorem Display.setPend_contrast (d : Display) (x : Pending) : (d.setPend x).contrast = d.contrast := rfl
@[simp] theorem Display.setPend_on (d : Display) (x : Pending) : (d.setPend x).on = d.on := rfl
@[simp] theorem Display.setPend_inv (d : Display) (x : Pending) : (d.setPend x).inv = d.inv := rfl
@[simp] theorem Display.setPend_segremap (d : Display) (x : Pending) : (d.setPend x).segremap = d.segremap := rfl
@[simp] theorem Display.setPend_scandir (d : Display) (x : Pending) : (d.setPend x).scandir = d.scandir := rfl
@[simp] theorem Display.setPend_round (d : Display) (x : Pending) : (d.setPend x).round = d.round := rfl
@[simp] theorem Display.setPend_fb (d : Display) (x : Pending) : (d.setPend x).fb = d.fb := rfl
@[simp] theorem Display.setPend_grid (d : Display) (x : Pending) : (d.setPend x).grid = d.grid := rfl
@[simp] theorem Display.setContrast_mode (d : Display) (x : Byte) : (d.setContrast x).mode = d.mode := rfl
@[simp] theorem Display.setContrast_page (d : Display) (x : Byte) : (d.setContrast x).page = d.page := rfl
@[simp] theorem Display.setContrast_col (d : Display) (x : Byte) : (d.setContrast x).col = d.col := rfl
@[simp] theorem Display.setContrast_pend (d : Display) (x : Byte) : (d.setContrast x).pend = d.pend := rfl
@[simp] theorem Display.setContrast_contrast (d : Display) (x : Byte) : (d.setContrast x).contrast = x := rfl
@[simp] theorem Display.setContrast_on (d : Display) (x : Byte) : (d.setContrast x).on = d.on := rfl
@[simp] theorem Display.setContrast_inv (d : Display) (x : Byte) : (d.setContrast x).inv = d.inv := rfl
@[simp] theorem Display.setContrast_segremap (d : Display) (x : Byte) : (d.setContrast x).segremap = d.segremap := rfl
@[simp] theorem Display.setContrast_scandir (d : Display) (x : Byte) : (d.setContrast x).scandir = d.scandir := rfl
@[simp] theorem Display.setContrast_round (d : Display) (x : Byte) : (d.setContrast x).round = d.round := rfl
@[simp] theorem Display.setContrast_fb (d : Display) (x : Byte) : (d.setContrast x).fb = d.fb := rfl
@[simp] theorem Display.setContrast_grid (d : Display) (x : Byte) : (d.setContrast x).grid = d.grid := rfl
@[simp] theorem Display.setOn_mode (d : Display) (x : Bool) : (d.setOn x).mode = d.mode := rfl
@[simp] theorem Display.setOn_page (d : Display) (x : Bool) : (d.setOn x).page = d.page := rfl
@[simp] theorem Display.setOn_col (d : Display) (x : Bool) : (d.setOn x).col = d.col := rfl
@[simp] theorem Display.setOn_pend (d : Display) (x : Bool) : (d.setOn x).pend = d.pend := rfl
@[simp] theorem Display.setOn_contrast (d : Display) (x : Bool) : (d.setOn x).contrast = d.contrast := rfl
@[simp] theorem Display.setOn_on (d : Display) (x : Bool) : (d.setOn x).on = x := rfl
@[simp] theorem Display.setOn_inv (d : Display) (x : Bool) : (d.setOn x).inv = d.inv := rfl
@[simp] theorem Display.setOn_segremap (d : Display) (x : Bool) : (d.setOn x).segremap = d.segremap := rfl
@[simp] theorem Display.setOn_scandir (d : Display) (x : Bool) : (d.setOn x).scandir = d.scandir := rfl
@[simp] theorem Display.setOn_round (d : Display) (x : Bool) : (d.setOn x).round = d.round := rfl
@[simp] theorem Display.setOn_fb (d : Display) (x : Bool) : (d.setOn x).fb = d.fb := rfl
@[simp] theorem Display.setOn_grid (d : Display) (x : Bool) : (d.setOn x).grid = d.grid := rfl
@[simp] theorem Display.setInv_mode (d : Display) (x : Bool) : (d.setInv x).mode = d.mode := rfl
@[simp] theorem Display.setInv_page (d : Display) (x : Bool) : (d.setInv x).page = d.page := rfl
@[simp] theorem Display.setInv_col (d : Display) (x : Bool) : (d.setInv x).col = d.col := rfl
@[simp] theorem Display.setInv_pend (d : Display) (x : Bool) : (d.setInv x).pend = d.pend := rfl
@[simp] theorem Display.setInv_contrast (d : Display) (x : Bool) : (d.setInv x).contrast = d.contrast := rfl
@[simp] theorem Display.setInv_on (d : Display) (x : Bool) : (d.setInv x).on = d.on := rfl
@[simp] theorem Display.setInv_inv (d : Display) (x : Bool) : (d.setInv x).inv = x := rfl
@[simp] theorem Display.setInv_segremap (d : Display) (x : Bool) : (d.setInv x).segremap = d.segremap := rfl
@[simp] theorem Display.setInv_scandir (d : Display) (x : Bool) : (d.setInv x).scandir = d.scandir := rfl
@[simp] theorem Display.setInv_round (d : Display) (x : Bool) : (d.setInv x).round = d.round := rfl
@[simp] theorem Display.setInv_fb (d : Display) (x : Bool) : (d.setInv x).fb = d.fb := rfl
@[simp] theorem Display.setInv_grid (d : Display) (x : Bool) : (d.setInv x).grid = d.grid := rfl
@[simp] theorem Display.setSegremap_mode (d : Display) (x : Bool) : (d.setSegremap x).mode = d.mode := rfl
@[simp] theorem Display.setSegremap_page (d : Display) (x : Bool) : (d.setSegremap x).page = d.page := rfl
@[simp] theorem Display.setSegremap_col (d : Display) (x : Bool) : (d.setSegremap x).col = d.col := rfl
@[simp] theorem Display.setSegremap_pend (d : Display) (x : Bool) : (d.setSegremap x).pend = d.pend := rfl
@[simp] theorem Display.setSegremap_contrast (d : Display) (x : Bool) : (d.setSegremap x).contrast = d.contrast := rfl
@[simp] theorem Display.setSegremap_on (d : Display) (x : Bool) : (d.setSegremap x).on = d.on := rfl
@[simp] theorem Display.setSegremap_inv (d : Display) (x : Bool) : (d.setSegremap x).inv = d.inv := rfl
@[simp] theorem Display.setSegremap_segremap (d : Display) (x : Bool) : (d.setSegremap x).segremap = x := rfl
@[simp] theorem Display.setSegremap_scandir (d : Display) (x : Bool) : (d.setSegremap x).scandir = d.scandir := rfl
@[simp] theorem Display.setSegremap_round (d : Display) (x : Bool) : (d.setSegremap x).round = d.round := rfl
@[simp] theorem Display.setSegremap_fb (d : Display) (x : Bool) : (d.setSegremap x).fb = d.fb := rfl
@[simp] theorem Display.setSegremap_grid (d : Display) (x : Bool) : (d.setSegremap x).grid = d.grid := rfl
@[simp] theorem Display.setScandir_mode (d : Display) (x : Bool) : (d.setScandir x).mode = d.mode := rfl
@[simp] theorem Display.setScandir_page (d : Display) (x : Bool) : (d.setScandir x).page = d.page := rfl
@[simp] theorem Display.setScandir_col (d : Display) (x : Bool) : (d.setScandir x).col = d.col := rfl
@[simp] theorem Display.setScandir_pend (d : Display) (x : Bool) : (d.setScandir x).pend = d.pend := rfl
@[simp] theorem Display.setScandir_contrast (d : Display) (x : Bool) : (d.setScandir x).contrast = d.contrast := rfl
@[simp] theorem Display.setScandir_on (d : Display) (x : Bool) : (d.setScandir x).on = d.on := rfl
@[simp] theorem Display.setScandir_inv (d : Display) (x : Bool) : (d.setScandir x).inv = d.inv := rfl
@[simp] theorem Display.setScandir_segremap (d : Display) (x : Bool) : (d.setScandir x).segremap = d.segremap := rfl
@[simp] theorem Display.setScandir_scandir (d : Display) (x : Bool) : (d.setScandir x).scandir = x := rfl
@[simp] theorem Display.setScandir_round (d : Display) (x : Bool) : (d.setScandir x).round = d.round := rfl
@[simp] theorem Display.setScandir_fb (d : Display) (x : Bool) : (d.setScandir x).fb = d.fb := rfl
@[simp] theorem Display.setScandir_grid (d : Display) (x : Bool) : (d.setScandir x).grid = d.grid := rfl
@[simp] theorem Display.setRound_mode (d : Display) (x : Bool) : (d.setRound x).mode = d.mode := rfl
@[simp] theorem Display.setRound_page (d : Display) (x : Bool) : (d.setRound x).page = d.page := rfl
@[simp] theorem Display.setRound_col (d : Display) (x : Bool) : (d.setRound x).col = d.col := rfl
@[simp] theorem Display.setRound_pend (d : Display) (x : Bool) : (d.setRound x).pend = d.pend := rfl
@[simp] theorem Display.setRound_contrast (d : Display) (x : Bool) : (d.setRound x).contrast = d.contrast := rfl
@[simp] theorem Display.setRound_on (d : Display) (x : Bool) : (d.setRound x).on = d.on := rfl
@[simp] theorem Display.setRound_inv (d : Display) (x : Bool) : (d.setRound x).inv = d.inv := rfl
@[simp] theorem Display.setRound_segremap (d : Display) (x : Bool) : (d.setRound x).segremap = d.segremap := rfl
@[simp] theorem Display.setRound_scandir (d : Display) (x : Bool) : (d.setRound x).scandir = d.scandir := rfl
@[simp] theorem Display.setRound_round (d : Display) (x : Bool) : (d.setRound x).round = x := rfl
@[simp] theorem Display.setRound_fb (d : Display) (x : Bool) : (d.setRound x).fb = d.fb := rfl
@[simp] theorem Display.setRound_grid (d : Display) (x : Bool) : (d.setRound x).grid = d.grid := rfl
@[simp] theorem Display.setFb_mode (d : Display) (x : List Host.Cell) : (d.setFb x).mode = d.mode := rfl
@[simp] theorem Display.setFb_page (d : Display) (x : List Host.Cell) : (d.setFb x).page = d.page := rfl
@[simp] theorem Display.setFb_col (d : Display) (x : List Host.Cell) : (d.setFb x).col = d.col := rfl
@[simp] theorem Display.setFb_pend (d : Display) (x : List Host.Cell) : (d.setFb x).pend = d.pend := rfl
@[simp] theorem Display.setFb_contrast (d : Display) (x : List Host.Cell) : (d.setFb x).contrast = d.contrast := rfl
@[simp] theorem Display.setFb_on (d : Display) (x : List Host.Cell) : (d.setFb x).on = d.on := rfl
@[simp] theorem Display.setFb_inv (d : Display) (x : List Host.Cell) : (d.setFb x).inv = d.inv := rfl
@[simp] theorem Display.setFb_segremap (d : Display) (x : List Host.Cell) : (d.setFb x).segremap = d.segremap := rfl
@[simp] theorem Display.setFb_scandir (d : Display) (x : List Host.Cell) : (d.setFb x).scandir = d.scandir := rfl
@[simp] theorem Display.setFb_round (d : Display) (x : List Host.Cell) : (d.setFb x).round = d.round := rfl
@[simp] theorem Display.setFb_fb (d : Display) (x : List Host.Cell) : (d.setFb x).fb = x := rfl
@[simp] theorem Display.setFb_grid (d : Display) (x : List Host.Cell) : (d.setFb x).grid = d.grid := rfl
@[simp] theorem Display.setGrid_mode (d : Display) (x : Vector (BitVec 128) 64) : (d.setGrid x).mode = d.mode := rfl
@[simp] theorem Display.setGrid_page (d : Display) (x : Vector (BitVec 128) 64) : (d.setGrid x).page = d.page := rfl
@[simp] theorem Display.setGrid_col (d : Display) (x : Vector (BitVec 128) 64) : (d.setGrid x).col = d.col := rfl
@[simp] theorem Display.setGrid_pend (d : Display) (x : Vector (BitVec 128) 64) : (d.setGrid x).pend = d.pend := rfl
@[simp] theorem Display.setGrid_contrast (d : Display) (x : Vector (BitVec 128) 64) : (d.setGrid x).contrast = d.contrast := rfl
@[simp] theorem Display.setGrid_on (d : Display) (x : Vector (BitVec 128) 64) : (d.setGrid x).on = d.on := rfl
@[simp] theorem Display.setGrid_inv (d : Display) (x : Vector (BitVec 128) 64) : (d.setGrid x).inv = d.inv := rfl
@[simp] theorem Display.setGrid_segremap (d : Display) (x : Vector (BitVec 128) 64) : (d.setGrid x).segremap = d.segremap := rfl
@[simp] theorem Display.setGrid_scandir (d : Display) (x : Vector (BitVec 128) 64) : (d.setGrid x).scandir = d.scandir := rfl
@[simp] theorem Display.setGrid_round (d : Display) (x : Vector (BitVec 128) 64) : (d.setGrid x).round = d.round := rfl
@[simp] theorem Display.setGrid_fb (d : Display) (x : Vector (BitVec 128) 64) : (d.setGrid x).fb = d.fb := rfl
@[simp] theorem Display.setGrid_grid (d : Display) (x : Vector (BitVec 128) 64) : (d.setGrid x).grid = x := rfl

/-! ### Audio -/

@[simp] theorem Audio.setTog_tog (a : Audio) (x : Bool) : (a.setTog x).tog = x := rfl
@[simp] theorem Audio.setTog_tlast (a : Audio) (x : Bool) : (a.setTog x).tlast = a.tlast := rfl
@[simp] theorem Audio.setTog_tot (a : Audio) (x : Bool) : (a.setTog x).tot = a.tot := rfl
@[simp] theorem Audio.setTog_high (a : Audio) (x : Bool) : (a.setTog x).high = a.high := rfl
@[simp] theorem Audio.setTog_abuf (a : Audio) (x : Bool) : (a.setTog x).abuf = a.abuf := rfl
@[simp] theorem Audio.setTlast_tog (a : Audio) (x : Cycle) : (a.setTlast x).tog = a.tog := rfl
@[simp] theorem Audio.setTlast_tlast (a : Audio) (x : Cycle) : (a.setTlast x).tlast = x := rfl
@[simp] theorem Audio.setTlast_tot (a : Audio) (x : Cycle) : (a.setTlast x).tot = a.tot := rfl
@[simp] theorem Audio.setTlast_high (a : Audio) (x : Cycle) : (a.setTlast x).high = a.high := rfl
@[simp] theorem Audio.setTlast_abuf (a : Audio) (x : Cycle) : (a.setTlast x).abuf = a.abuf := rfl
@[simp] theorem Audio.setTot_tog (a : Audio) (x : Cycle) : (a.setTot x).tog = a.tog := rfl
@[simp] theorem Audio.setTot_tlast (a : Audio) (x : Cycle) : (a.setTot x).tlast = a.tlast := rfl
@[simp] theorem Audio.setTot_tot (a : Audio) (x : Cycle) : (a.setTot x).tot = x := rfl
@[simp] theorem Audio.setTot_high (a : Audio) (x : Cycle) : (a.setTot x).high = a.high := rfl
@[simp] theorem Audio.setTot_abuf (a : Audio) (x : Cycle) : (a.setTot x).abuf = a.abuf := rfl
@[simp] theorem Audio.setHigh_tog (a : Audio) (x : Cycle) : (a.setHigh x).tog = a.tog := rfl
@[simp] theorem Audio.setHigh_tlast (a : Audio) (x : Cycle) : (a.setHigh x).tlast = a.tlast := rfl
@[simp] theorem Audio.setHigh_tot (a : Audio) (x : Cycle) : (a.setHigh x).tot = a.tot := rfl
@[simp] theorem Audio.setHigh_high (a : Audio) (x : Cycle) : (a.setHigh x).high = x := rfl
@[simp] theorem Audio.setHigh_abuf (a : Audio) (x : Cycle) : (a.setHigh x).abuf = a.abuf := rfl
@[simp] theorem Audio.setAbuf_tog (a : Audio) (x : List Byte) : (a.setAbuf x).tog = a.tog := rfl
@[simp] theorem Audio.setAbuf_tlast (a : Audio) (x : List Byte) : (a.setAbuf x).tlast = a.tlast := rfl
@[simp] theorem Audio.setAbuf_tot (a : Audio) (x : List Byte) : (a.setAbuf x).tot = a.tot := rfl
@[simp] theorem Audio.setAbuf_high (a : Audio) (x : List Byte) : (a.setAbuf x).high = a.high := rfl
@[simp] theorem Audio.setAbuf_abuf (a : Audio) (x : List Byte) : (a.setAbuf x).abuf = x := rfl

/-! ### State -/

@[simp] theorem State.setInput_cfg (s : State) (x : List Event) : (s.setInput x).cfg = s.cfg := rfl
@[simp] theorem State.setInput_input (s : State) (x : List Event) : (s.setInput x).input = x := rfl
@[simp] theorem State.setInput_results (s : State) (x : List Event) : (s.setInput x).results = s.results := rfl
@[simp] theorem State.setInput_fresh (s : State) (x : List Event) : (s.setInput x).fresh = s.fresh := rfl
@[simp] theorem State.setInput_ready (s : State) (x : List Event) : (s.setInput x).ready = s.ready := rfl
@[simp] theorem State.setInput_bus (s : State) (x : List Event) : (s.setInput x).bus = s.bus := rfl
@[simp] theorem State.setInput_disp (s : State) (x : List Event) : (s.setInput x).disp = s.disp := rfl
@[simp] theorem State.setInput_audio (s : State) (x : List Event) : (s.setInput x).audio = s.audio := rfl
@[simp] theorem State.setResults_cfg (s : State) (x : List Result) : (s.setResults x).cfg = s.cfg := rfl
@[simp] theorem State.setResults_input (s : State) (x : List Result) : (s.setResults x).input = s.input := rfl
@[simp] theorem State.setResults_results (s : State) (x : List Result) : (s.setResults x).results = x := rfl
@[simp] theorem State.setResults_fresh (s : State) (x : List Result) : (s.setResults x).fresh = s.fresh := rfl
@[simp] theorem State.setResults_ready (s : State) (x : List Result) : (s.setResults x).ready = s.ready := rfl
@[simp] theorem State.setResults_bus (s : State) (x : List Result) : (s.setResults x).bus = s.bus := rfl
@[simp] theorem State.setResults_disp (s : State) (x : List Result) : (s.setResults x).disp = s.disp := rfl
@[simp] theorem State.setResults_audio (s : State) (x : List Result) : (s.setResults x).audio = s.audio := rfl
@[simp] theorem State.setFresh_cfg (s : State) (x : Nat) : (s.setFresh x).cfg = s.cfg := rfl
@[simp] theorem State.setFresh_input (s : State) (x : Nat) : (s.setFresh x).input = s.input := rfl
@[simp] theorem State.setFresh_results (s : State) (x : Nat) : (s.setFresh x).results = s.results := rfl
@[simp] theorem State.setFresh_fresh (s : State) (x : Nat) : (s.setFresh x).fresh = x := rfl
@[simp] theorem State.setFresh_ready (s : State) (x : Nat) : (s.setFresh x).ready = s.ready := rfl
@[simp] theorem State.setFresh_bus (s : State) (x : Nat) : (s.setFresh x).bus = s.bus := rfl
@[simp] theorem State.setFresh_disp (s : State) (x : Nat) : (s.setFresh x).disp = s.disp := rfl
@[simp] theorem State.setFresh_audio (s : State) (x : Nat) : (s.setFresh x).audio = s.audio := rfl
@[simp] theorem State.setReady_cfg (s : State) (x : Bool) : (s.setReady x).cfg = s.cfg := rfl
@[simp] theorem State.setReady_input (s : State) (x : Bool) : (s.setReady x).input = s.input := rfl
@[simp] theorem State.setReady_results (s : State) (x : Bool) : (s.setReady x).results = s.results := rfl
@[simp] theorem State.setReady_fresh (s : State) (x : Bool) : (s.setReady x).fresh = s.fresh := rfl
@[simp] theorem State.setReady_ready (s : State) (x : Bool) : (s.setReady x).ready = x := rfl
@[simp] theorem State.setReady_bus (s : State) (x : Bool) : (s.setReady x).bus = s.bus := rfl
@[simp] theorem State.setReady_disp (s : State) (x : Bool) : (s.setReady x).disp = s.disp := rfl
@[simp] theorem State.setReady_audio (s : State) (x : Bool) : (s.setReady x).audio = s.audio := rfl
@[simp] theorem State.setBus_cfg (s : State) (x : Bus) : (s.setBus x).cfg = s.cfg := rfl
@[simp] theorem State.setBus_input (s : State) (x : Bus) : (s.setBus x).input = s.input := rfl
@[simp] theorem State.setBus_results (s : State) (x : Bus) : (s.setBus x).results = s.results := rfl
@[simp] theorem State.setBus_fresh (s : State) (x : Bus) : (s.setBus x).fresh = s.fresh := rfl
@[simp] theorem State.setBus_ready (s : State) (x : Bus) : (s.setBus x).ready = s.ready := rfl
@[simp] theorem State.setBus_bus (s : State) (x : Bus) : (s.setBus x).bus = x := rfl
@[simp] theorem State.setBus_disp (s : State) (x : Bus) : (s.setBus x).disp = s.disp := rfl
@[simp] theorem State.setBus_audio (s : State) (x : Bus) : (s.setBus x).audio = s.audio := rfl
@[simp] theorem State.setDisp_cfg (s : State) (x : Display) : (s.setDisp x).cfg = s.cfg := rfl
@[simp] theorem State.setDisp_input (s : State) (x : Display) : (s.setDisp x).input = s.input := rfl
@[simp] theorem State.setDisp_results (s : State) (x : Display) : (s.setDisp x).results = s.results := rfl
@[simp] theorem State.setDisp_fresh (s : State) (x : Display) : (s.setDisp x).fresh = s.fresh := rfl
@[simp] theorem State.setDisp_ready (s : State) (x : Display) : (s.setDisp x).ready = s.ready := rfl
@[simp] theorem State.setDisp_bus (s : State) (x : Display) : (s.setDisp x).bus = s.bus := rfl
@[simp] theorem State.setDisp_disp (s : State) (x : Display) : (s.setDisp x).disp = x := rfl
@[simp] theorem State.setDisp_audio (s : State) (x : Display) : (s.setDisp x).audio = s.audio := rfl
@[simp] theorem State.setAudio_cfg (s : State) (x : Audio) : (s.setAudio x).cfg = s.cfg := rfl
@[simp] theorem State.setAudio_input (s : State) (x : Audio) : (s.setAudio x).input = s.input := rfl
@[simp] theorem State.setAudio_results (s : State) (x : Audio) : (s.setAudio x).results = s.results := rfl
@[simp] theorem State.setAudio_fresh (s : State) (x : Audio) : (s.setAudio x).fresh = s.fresh := rfl
@[simp] theorem State.setAudio_ready (s : State) (x : Audio) : (s.setAudio x).ready = s.ready := rfl
@[simp] theorem State.setAudio_bus (s : State) (x : Audio) : (s.setAudio x).bus = s.bus := rfl
@[simp] theorem State.setAudio_disp (s : State) (x : Audio) : (s.setAudio x).disp = s.disp := rfl
@[simp] theorem State.setAudio_audio (s : State) (x : Audio) : (s.setAudio x).audio = x := rfl

/-! ### Results -/

@[simp] theorem State.addResult_cfg (s : State) (r : Result) : (s.addResult r).cfg = s.cfg := rfl
@[simp] theorem State.addResult_input (s : State) (r : Result) : (s.addResult r).input = s.input := rfl
@[simp] theorem State.addResult_results (s : State) (r : Result) : (s.addResult r).results = s.results ++ [r] := rfl
@[simp] theorem State.addResult_fresh (s : State) (r : Result) : (s.addResult r).fresh = s.fresh := rfl
@[simp] theorem State.addResult_ready (s : State) (r : Result) : (s.addResult r).ready = s.ready := rfl
@[simp] theorem State.addResult_bus (s : State) (r : Result) : (s.addResult r).bus = s.bus := rfl
@[simp] theorem State.addResult_disp (s : State) (r : Result) : (s.addResult r).disp = s.disp := rfl
@[simp] theorem State.addResult_audio (s : State) (r : Result) : (s.addResult r).audio = s.audio := rfl

end Sys2Proof.Machine
end

