-- ==== Sys2Proof/Laws/Ops.lean ====
section
/-! SUPPORT. What each shared operation can do, once: the errors and the recovery, the gate, the flush, the cursor, the renderer. -/

namespace Sys2Proof.Machine

/-! ### Errors, recovery, gate -/

@[simp] theorem desync_eq (s : State) : desync s = { s with bus := { s.bus with bst := .idle } } := rfl

@[simp] theorem startCondition_eq (s : State) :
    startCondition s = { s with bus := { s.bus with bst := .started, cnt := 0 } } := rfl

@[simp] theorem stopCondition_eq (s : State) :
    stopCondition s = { s with bus := { s.bus with bst := .idle, cnt := 0 } } := rfl

@[simp] theorem preconditionViolation_some (r : Result) (s : State) :
    preconditionViolation (some r) s = s.addResult r := rfl

@[simp] theorem preconditionViolation_none (s : State) : preconditionViolation none s = s := rfl

theorem gate_of_ready {s : State} (h : s.ready = true) (falsy : Option Result) (f : State → State) :
    gate falsy f s = f s := by simp [gate, h]

theorem gate_of_not_ready {s : State} (h : s.ready = false) (falsy : Option Result) (f : State → State) :
    gate falsy f s = preconditionViolation falsy s := by simp [gate, h]

/-! ### Flush -/

/-- A flush writes the grid and nothing else. -/
theorem flush_eq (d : Display) : flush d = { d with grid := (flush d).grid } := rfl

@[simp] theorem flush_fb (d : Display) : (flush d).fb = d.fb := rfl
@[simp] theorem flush_page (d : Display) : (flush d).page = d.page := rfl
@[simp] theorem flush_col (d : Display) : (flush d).col = d.col := rfl
@[simp] theorem flush_pend (d : Display) : (flush d).pend = d.pend := rfl
@[simp] theorem flush_mode (d : Display) : (flush d).mode = d.mode := rfl

/-- The bit a flush gives to row `y`, column `x`. -/
theorem gridBit_flush (d : Display) {y x : Nat} (hy : y < 64) (hx : x < 128) :
    gridBit (flush d) y x = (Memory.read d.fb (y / 8 * 128 + x)).getLsbD (y % 8) := by
  simp [gridBit, flush, Display.setGrid, flushGrid, flushRow, List.getD_eq_getElem?_getD, hy, hx, fbCols]

/-! ### The data path -/

@[simp] theorem storeStrip_eq (b : Byte) (d : Display) :
    storeStrip b d = { d with fb := Memory.write d.fb (fbAddress d.page d.col) b } := rfl

/-- Everything the cursor's advance can do (R130). -/
theorem advanceCursor_cases (d : Display) :
    (d.col ≠ 127 ∧ advanceCursor d = { d with col := d.col + 1 }) ∨
    (d.col = 127 ∧ d.mode = .page ∧ advanceCursor d = { d with col := 0 }) ∨
    (d.col = 127 ∧ d.mode = .horizontal ∧ d.page ≠ 7 ∧ advanceCursor d = { d with col := 0, page := d.page + 1 }) ∨
    (d.col = 127 ∧ d.mode = .horizontal ∧ d.page = 7 ∧ d.round = false ∧ advanceCursor d = { d with col := 0, page := 0 }) ∨
    (d.col = 127 ∧ d.mode = .horizontal ∧ d.page = 7 ∧ d.round = true ∧
      advanceCursor d = flush { d with col := 0, page := 0 }) := by
  have hc : d.col.toNat < 127 ↔ d.col ≠ 127 := by
    have := d.col.isLt
    rw [ne_eq, BitVec.toNat_inj.symm]
    show _ ↔ ¬ _ = 127
    omega
  have hp : d.page.toNat < 7 ↔ d.page ≠ 7 := by
    have := d.page.isLt
    rw [ne_eq, BitVec.toNat_inj.symm]
    show _ ↔ ¬ _ = 7
    omega
  by_cases h1 : d.col = 127
  · have h1' := mt hc.mp (not_not_intro h1)
    cases hm : d.mode
    · by_cases h2 : d.page = 7
      · have h2' := mt hp.mp (not_not_intro h2)
        cases hr : d.round
        · exact .inr (.inr (.inr (.inl ⟨h1, rfl, h2, rfl, by
            simp [advanceCursor, h1', hm, h2', hr, Display.setCol, Display.setPage]⟩)))
        · exact .inr (.inr (.inr (.inr ⟨h1, rfl, h2, rfl, by
            simp [advanceCursor, h1', hm, h2', hr, Display.setCol, Display.setPage]⟩)))
      · exact .inr (.inr (.inl ⟨h1, rfl, h2, by
          simp [advanceCursor, h1', hm, hp.mpr h2, Display.setCol, Display.setPage]⟩))
    · exact .inr (.inl ⟨h1, rfl, by simp [advanceCursor, h1', hm, Display.setCol]⟩)
  · exact .inl ⟨h1, by simp [advanceCursor, hc.mpr h1, Display.setCol]⟩

/-! ### The renderer -/

theorem render_off {d : Display} (h : d.on = false) (target : List Pixel) : render d target = target := by
  simp [render, h]

theorem render_on {d : Display} (h : d.on = true) (target : List Pixel) :
    render d target =
      (List.range 8192).map (fun i => renderPixel d (i / 128) (i % 128)) ++ target.drop 8192 := by
  simp [render, h, pixbufMin, fbCols]

theorem length_render (d : Display) {target : List Pixel} (h : 8192 ≤ target.length) :
    (render d target).length = target.length := by
  cases hd : d.on
  · rw [render_off hd]
  · rw [render_on hd]; simp; omega

end Sys2Proof.Machine
end

