-- ==== Sys2Proof/Laws/Commit.lean ====
section
/-! SUPPORT. What committing a byte can do (R88), and the small laws of the operand forms it uses. -/

namespace Sys2Proof.Machine

/-! ### Operand forms -/

theorem toNat_shiftIn (acc : Byte) (l : Bool) : (shiftIn acc l).toNat = (2 * acc.toNat + l.toNat) % 256 := by
  revert acc l; decide +kernel

theorem shiftIn_eq_ofNat (acc : Byte) (l : Bool) : shiftIn acc l = BitVec.ofNat 8 (2 * acc.toNat + l.toNat) := by
  apply BitVec.eq_of_toNat_eq; rw [toNat_shiftIn]; simp

theorem getLsbD_shiftIn_zero (acc : Byte) (l : Bool) : (shiftIn acc l).getLsbD 0 = l := by
  revert acc l; decide +kernel

theorem getLsbD_shiftIn_succ (acc : Byte) (l : Bool) {k : Nat} (hk : k < 7) :
    (shiftIn acc l).getLsbD (k + 1) = acc.getLsbD k := by
  have : ∀ k : Fin 7, (shiftIn acc l).getLsbD (k.val + 1) = acc.getLsbD k.val := by revert acc l; decide +kernel
  exact this ⟨k, hk⟩

theorem toNat_colWithLow (col : BitVec 7) (n : BitVec 4) :
    (colWithLow col n).toNat = col.toNat / 16 * 16 + n.toNat := by
  revert col n; decide +kernel

theorem toNat_colWithHigh (col : BitVec 7) (n : BitVec 4) :
    (colWithHigh col n).toNat = n.toNat % 8 * 16 + col.toNat % 16 := by
  revert col n; decide +kernel

theorem memModeOf_eq (v : Byte) :
    memModeOf v = if v.toNat % 4 = 0 then some .horizontal else if v.toNat % 4 = 2 then some .page else none := by
  revert v; decide +kernel

/-! ### A byte-level instruction -/

/-- A byte-level instruction writes `bst` and the DISPLAY sub-block, and what it writes there depends only on the parameters, `bst`
and the DISPLAY sub-block. -/
theorem runByte_of_same (i : Instr) {s t : State} (hcfg : t.cfg = s.cfg) (hbst : t.bus.bst = s.bus.bst)
    (hdisp : t.disp = s.disp) :
    runByte i t = { t with bus := { t.bus with bst := (runByte i s).bus.bst }, disp := (runByte i s).disp } := by
  obtain ⟨cfg, input, results, fresh, ready, bus, disp, audio⟩ := t
  obtain ⟨scl, sda, bst, cnt, acc, dr⟩ := bus
  subst hcfg; subst hbst; subst hdisp
  cases i with
  | addr a rw => simp only [runByte, commitAddress]; split <;> rfl
  | paramMemMode v => simp only [runByte, paramMemMode]; split <;> rfl
  | extCmd b p => simp only [runByte, extCommand]; split <;> rfl
  | _ => rfl

/-! ### A committed byte -/

theorem commitByte_ok {b : Byte} {s : State} {i : Instr}
    (h : decodeByte s.cfg.extCmds s.bus.bst s.disp.pend b = .ok i) : commitByte b s = runByte i s := by
  simp [commitByte, h]

theorem commitByte_idle {s : State} (h : s.bus.bst = .idle) (b : Byte) : commitByte b s = s := by
  simp [commitByte, decodeByte, h, rejectedByte]

theorem commitByte_command {s : State} (h : s.bus.bst = .commandPhase) (b : Byte) :
    commitByte b s = runByte (decodeCommand s.cfg.extCmds s.disp.pend b) s :=
  commitByte_ok (by simp [decodeByte, h])

theorem commitByte_data {s : State} (h : s.bus.bst = .dataPhase) (b : Byte) : commitByte b s = dataByte b s :=
  commitByte_ok (i := .data b) (by simp [decodeByte, h])

/-- A committed byte writes `bst` and the DISPLAY sub-block, and what it writes there depends only on the parameters, `bst` and the
DISPLAY sub-block. -/
theorem commitByte_of_same (b : Byte) {s t : State} (hcfg : t.cfg = s.cfg) (hbst : t.bus.bst = s.bus.bst)
    (hdisp : t.disp = s.disp) :
    commitByte b t = { t with bus := { t.bus with bst := (commitByte b s).bus.bst }, disp := (commitByte b s).disp } := by
  have hd : decodeByte t.cfg.extCmds t.bus.bst t.disp.pend b = decodeByte s.cfg.extCmds s.bus.bst s.disp.pend b := by
    rw [hcfg, hbst, hdisp]
  unfold commitByte
  rw [hd]
  split
  · exact runByte_of_same _ hcfg hbst hdisp
  · rename_i r _
    obtain ⟨cfg, input, results, fresh, ready, bus, disp, audio⟩ := t
    obtain ⟨scl, sda, bst, cnt, acc, dr⟩ := bus
    subst hcfg; subst hbst; subst hdisp
    cases r <;> rfl

/-- The frame of a committed byte. -/
theorem commitByte_frame (b : Byte) (s : State) :
    commitByte b s = { s with bus := { s.bus with bst := (commitByte b s).bus.bst }, disp := (commitByte b s).disp } :=
  commitByte_of_same b rfl rfl rfl

@[simp] theorem commitByte_cfg (b : Byte) (s : State) : (commitByte b s).cfg = s.cfg := by rw [commitByte_frame]
@[simp] theorem commitByte_input (b : Byte) (s : State) : (commitByte b s).input = s.input := by rw [commitByte_frame]
@[simp] theorem commitByte_results (b : Byte) (s : State) : (commitByte b s).results = s.results := by rw [commitByte_frame]
@[simp] theorem commitByte_fresh (b : Byte) (s : State) : (commitByte b s).fresh = s.fresh := by rw [commitByte_frame]
@[simp] theorem commitByte_ready (b : Byte) (s : State) : (commitByte b s).ready = s.ready := by rw [commitByte_frame]
@[simp] theorem commitByte_audio (b : Byte) (s : State) : (commitByte b s).audio = s.audio := by rw [commitByte_frame]
@[simp] theorem commitByte_scl (b : Byte) (s : State) : (commitByte b s).bus.scl = s.bus.scl := by rw [commitByte_frame]
@[simp] theorem commitByte_sda (b : Byte) (s : State) : (commitByte b s).bus.sda = s.bus.sda := by rw [commitByte_frame]
@[simp] theorem commitByte_cnt (b : Byte) (s : State) : (commitByte b s).bus.cnt = s.bus.cnt := by rw [commitByte_frame]
@[simp] theorem commitByte_acc (b : Byte) (s : State) : (commitByte b s).bus.acc = s.bus.acc := by rw [commitByte_frame]
@[simp] theorem commitByte_dr (b : Byte) (s : State) : (commitByte b s).bus.dr = s.bus.dr := by rw [commitByte_frame]

end Sys2Proof.Machine
end

