-- ==== Sys2Proof/Laws/Decode.lean ====
section
/-! SUPPORT. The decoder's laws: which instructions a byte can decode to, and that the rows of R65 do not overlap. -/

namespace Sys2Proof

/-- Rows of the command table match no byte in common (R101: "the ranges do not overlap"). -/
theorem commandTable_disjoint :
    commandTable.Pairwise (fun r r' => ∀ n ∈ List.range 256,
      ¬ (BitVec.ofNat 8 n &&& r.2 = r.1 ∧ BitVec.ofNat 8 n &&& r'.2 = r'.1)) := by decide +kernel

/-- The decoder of opcodes and the table of R65 recognise the same bytes: a byte of the table decodes the same for every list of
extra commands. -/
theorem decodeOpcode_of_inTable (ext : List ExtCmd) {b : Byte} (h : inCommandTable b = true) :
    decodeOpcode ext b = decodeOpcode [] b := by
  have hr : ∀ b : Byte, inCommandTable b = true →
      (b &&& 0xF0 = 0x00 ∨ b &&& 0xF0 = 0x10 ∨ b = 0x20 ∨ b = 0x81 ∨ b &&& 0xFE = 0xA0 ∨ b &&& 0xFE = 0xA6 ∨
        b &&& 0xFE = 0xAE ∨ b &&& 0xF8 = 0xB0 ∨ b &&& 0xF7 = 0xC0) := by decide +kernel
  have hb := hr b h
  rcases hb with h | h | h | h | h | h | h | h | h <;> simp +contextual only [decodeOpcode, h, if_true]

/-- A byte outside the table is an extra command or unrecognised. -/
theorem decodeOpcode_of_notInTable (ext : List ExtCmd) {b : Byte} (h : inCommandTable b = false) :
    decodeOpcode ext b = match findExt ext b with
      | some e => .extCmd b e.hasParam
      | none => .unrecognised b := by
  have hr : ∀ b : Byte, inCommandTable b = false →
      ¬ (b &&& 0xF0 = 0x00) ∧ ¬ (b &&& 0xF0 = 0x10) ∧ ¬ (b = 0x20) ∧ ¬ (b = 0x81) ∧ ¬ (b &&& 0xFE = 0xA0) ∧
        ¬ (b &&& 0xFE = 0xA6) ∧ ¬ (b &&& 0xFE = 0xAE) ∧ ¬ (b &&& 0xF8 = 0xB0) ∧ ¬ (b &&& 0xF7 = 0xC0) := by decide +kernel
  obtain ⟨h1, h2, h3, h4, h5, h6, h7, h8, h9⟩ := hr b h
  simp only [decodeOpcode, h1, h2, h3, h4, h5, h6, h7, h8, h9, if_false]
  all_goals rfl

end Sys2Proof
end

