-- ==== Sys2Proof/Laws/Step.lean ====
section
/-! SUPPORT. The step and the run: what a step makes of its event, and runs event by event. -/

namespace Sys2Proof.Machine

theorem deliverAll_nil (s : State) : deliverAll [] s = s := rfl

theorem deliverAll_cons (e : Event) (es : List Event) (s : State) :
    deliverAll (e :: es) s = deliverAll es (deliver s e) := rfl

theorem deliverAll_append (es es' : List Event) (s : State) :
    deliverAll (es ++ es') s = deliverAll es' (deliverAll es s) := List.foldl_append

/-- Executing an event's instruction is delivering the event. -/
theorem exec_of_decodeEvent {e : Event} {i : Instr} (h : decodeEvent e = .ok i) (s : State) :
    exec i s = .next (deliver s e) := by
  cases e with
  | regWrite reg v => cases reg <;> simp [decodeEvent] at h <;> (subst h; rfl)
  | _ => simp only [decodeEvent, Except.ok.injEq] at h; subst h; rfl

/-- A step with an event waiting is the delivery of that event. -/
theorem step_cons {s : State} {e : Event} {rest : List Event} (h : s.input = e :: rest) :
    step s = .next (deliver (s.setInput rest) e) := by
  unfold step
  rw [h]
  dsimp only
  split
  · rename_i i hi; exact exec_of_decodeEvent hi _
  · rename_i r hr
    cases e with
    | regWrite reg v =>
      cases reg <;> simp [decodeEvent] at hr
      rfl
    | _ => simp [decodeEvent] at hr

theorem step_nil {s : State} (h : s.input = []) : step s = .next s := by simp [step, h]

theorem commitByte_setInput (b : Byte) (s : State) (rest : List Event) :
    commitByte b (s.setInput rest) = (commitByte b s).setInput rest := by
  rw [commitByte_of_same b (s := s) (t := s.setInput rest) rfl rfl rfl]
  conv_rhs => rw [commitByte_frame]
  rfl

theorem gate_setInput {falsy : Option Result} {f : State → State} {s : State} {rest : List Event}
    (hf : f (s.setInput rest) = (f s).setInput rest) :
    gate falsy f (s.setInput rest) = (gate falsy f s).setInput rest := by
  cases h : s.ready
  · rw [gate_of_not_ready h, gate_of_not_ready (s := s.setInput rest) h]; cases falsy <;> rfl
  · rw [gate_of_ready h, gate_of_ready (s := s.setInput rest) h]; exact hf

theorem clockRise_setInput (s : State) (rest : List Event) :
    clockRise (s.setInput rest) = (clockRise s).setInput rest := by
  by_cases h : s.bus.bst = .idle
  · simp [clockRise, h]
  · by_cases hc : s.bus.cnt < 8
    · simp [clockRise, h, hc, sampleBit, State.setBus, State.setInput]
    · simp only [clockRise, State.setInput_bus, h, hc, if_false]
      exact commitByte_setInput s.bus.acc (s.setBus (s.bus.setCnt 0)) rest

theorem clockEdge_setInput (l : Bool) (s : State) (rest : List Event) :
    clockEdge l (s.setInput rest) = (clockEdge l s).setInput rest := by
  by_cases h : s.bus.scl = false ∧ l = true
  · simp only [clockEdge, State.setInput_bus, h, and_self, if_true]
    exact clockRise_setInput (s.setBus (s.bus.setScl true)) rest
  · simp only [clockEdge, State.setInput_bus, h, if_false]
    rfl

theorem dataEdge_setInput (l : Bool) (s : State) (rest : List Event) :
    dataEdge l (s.setInput rest) = (dataEdge l s).setInput rest := by
  cases hc : s.bus.scl <;> cases hd : s.bus.sda <;> cases l <;> simp [dataEdge, hc, hd] <;> rfl

theorem writeStatus_setInput (v : Byte) (s : State) (rest : List Event) :
    writeStatus v (s.setInput rest) = (writeStatus v s).setInput rest := by
  by_cases h : v = s.cfg.srSentinel
  · simp only [writeStatus, State.setInput_cfg, h, if_true]
    exact commitByte_setInput s.bus.dr (s.setBus (s.bus.setCnt 0)) rest
  · simp [writeStatus, h]

theorem frameTick_setInput (t : List Pixel) (s : State) (rest : List Event) :
    frameTick t (s.setInput rest) = (frameTick t s).setInput rest := by
  by_cases h : t.length < pixbufMin <;> simp only [frameTick, h, if_true, if_false] <;> rfl

theorem readAll_setInput (t : List Byte) (s : State) (rest : List Event) :
    readAll t (s.setInput rest) = (readAll t s).setInput rest := by
  by_cases h : t.length < audioReadMin <;> simp only [readAll, h, if_true, if_false] <;> rfl

/-- What an event does does not depend on the events behind it, and leaves them. -/
theorem deliver_setInput (s : State) (e : Event) (rest : List Event) :
    deliver (s.setInput rest) e = (deliver s e).setInput rest := by
  cases e with
  | setup => rfl
  | teardown => rfl
  | sclEdge l => exact gate_setInput (clockEdge_setInput l s rest)
  | sdaEdge l => exact gate_setInput (dataEdge_setInput l s rest)
  | regWrite reg v =>
    cases reg with
    | data => exact gate_setInput rfl
    | status => exact gate_setInput (writeStatus_setInput v s rest)
    | other n => rfl
  | setRefreshTiming r => exact gate_setInput rfl
  | frameTick t => exact gate_setInput (frameTick_setInput t s rest)
  | toggleEdge l now => exact gate_setInput rfl
  | sampleTick => exact gate_setInput rfl
  | readAudio t => exact gate_setInput (readAll_setInput t s rest)

theorem deliverAll_setInput (s : State) (es rest : List Event) :
    deliverAll es (s.setInput rest) = (deliverAll es s).setInput rest := by
  induction es generalizing s with
  | nil => rfl
  | cons e es ih => rw [deliverAll_cons, deliver_setInput, ih, deliverAll_cons]

/-- A run of as many steps as there are events is their delivery in order, with the rest of the input left waiting. -/
theorem run_deliverAll (es rest : List Event) {s : State} (h : s.input = es ++ rest) :
    Host.Core.run core es.length s = .next ((deliverAll es s).setInput rest) := by
  induction es generalizing s with
  | nil => cases s; simp_all [Host.Core.run, deliverAll_nil, State.setInput]
  | cons e es ih =>
    have hs : core.step s = .next (deliver (s.setInput (es ++ rest)) e) := step_cons (by simpa using h)
    simp only [List.length_cons, Host.Core.run, hs]
    rw [deliver_setInput, ih rfl, deliverAll_setInput, deliverAll_cons]
    rfl

end Sys2Proof.Machine
end

