-- ==== Sys2Proof/Laws/Events.lean ====
section
/-! SUPPORT. What an event can do, by whether it commits a byte, and what a byte does in each context: the lemmas the whole-machine
statements go through. -/

namespace Sys2Proof.Machine

/-- A byte-level instruction's meaning is the operation a commit runs. -/
theorem exec_of_kind_byte {i : Instr} (h : i.kind = .byte) (s : State) : exec i s = .next (runByte i s) := by
  cases i <;> first | rfl | simp [Instr.kind] at h

theorem kind_decodeOpcode (ext : List ExtCmd) (b : Byte) : (decodeOpcode ext b).kind = .byte := by
  unfold decodeOpcode
  repeat' split
  all_goals rfl

theorem kind_decodeCommand (ext : List ExtCmd) (p : Pending) (b : Byte) : (decodeCommand ext p b).kind = .byte := by
  cases p <;> first | rfl | exact kind_decodeOpcode ext b

/-- The decoder of bytes gives byte-level instructions only. -/
theorem kind_of_decodeByte {ext : List ExtCmd} {bst : BusState} {p : Pending} {b : Byte} {i : Instr}
    (h : decodeByte ext bst p b = .ok i) : i.kind = .byte := by
  cases bst with
  | idle => simp [decodeByte] at h
  | started => simp [decodeByte] at h; subst h; rfl
  | addressPhase =>
    simp only [decodeByte, decodeControl] at h
    split at h
    · cases h; rfl
    · split at h <;> cases h; rfl
  | commandPhase => simp [decodeByte] at h; subst h; exact kind_decodeCommand _ _ _
  | dataPhase => simp [decodeByte] at h; subst h; rfl

/-- A committed byte runs the instruction it decodes to. -/
theorem exec_of_decodeByte {s : State} {b : Byte} {i : Instr}
    (h : decodeByte s.cfg.extCmds s.bus.bst s.disp.pend b = .ok i) : exec i s = .next (commitByte b s) := by
  rw [exec_of_kind_byte (kind_of_decodeByte h), commitByte_ok h]

/-- Only an event on a ready block commits a byte. -/
theorem ready_of_committed {s : State} {e : Event} {b : Byte} (h : committed s e = some b) : s.ready = true := by
  unfold committed at h
  split at h
  · split at h <;> simp_all
  · split at h <;> simp_all
  · cases h

/-- An event that commits a byte clears the counter, may raise the clock line, and then does what the byte does. -/
theorem deliver_of_committed {s : State} {e : Event} {b : Byte} (h : committed s e = some b) :
    ∃ scl, deliver s e = commitByte b { s with bus := { s.bus with scl := scl, cnt := 0 } } := by
  have hr := ready_of_committed h
  unfold committed at h
  split at h
  · split at h
    · rename_i hc
      obtain ⟨-, hs, hb, hn⟩ := hc
      have hn' : ¬ s.bus.cnt < 8 := Nat.not_lt.mpr hn
      cases h
      refine ⟨true, ?_⟩
      simp [deliver, gate_of_ready hr, clockEdge, clockRise, ackSlot, hs, hb, hn', State.setBus, Bus.setScl, Bus.setCnt]
    · cases h
  · split at h
    · rename_i hc
      cases h
      exact ⟨s.bus.scl, by simp [deliver, gate_of_ready hr, writeStatus, hc.2, State.setBus, Bus.setCnt]⟩
    · cases h
  · cases h

/-- A clock edge that commits nothing writes `scl`, `acc` and `cnt` at most. -/
theorem clockEdge_of_not_committed {s : State} {l : Bool} (hr : s.ready = true) (h : committed s (.sclEdge l) = none) :
    clockEdge l s = { s with bus := { s.bus with scl := l, acc := (clockEdge l s).bus.acc, cnt := (clockEdge l s).bus.cnt } } := by
  by_cases h1 : s.bus.scl = false ∧ l = true
  · obtain ⟨hs, rfl⟩ := h1
    by_cases hb : s.bus.bst = .idle
    · simp [clockEdge, clockRise, hs, hb, State.setBus, Bus.setScl]
    · have hn : s.bus.cnt < 8 := by simp [committed, hr, hs, hb] at h; omega
      simp [clockEdge, clockRise, sampleBit, hs, hb, hn, State.setBus, Bus.setScl, Bus.setAcc, Bus.setCnt]
  · simp [clockEdge, h1, State.setBus, Bus.setScl]

/-- A status write that commits nothing does nothing. -/
theorem writeStatus_of_not_committed {s : State} {v : Byte} (hr : s.ready = true)
    (h : committed s (.regWrite .status v) = none) : writeStatus v s = s := by
  have : v ≠ s.cfg.srSentinel := fun hv => by simp [committed, hr, hv] at h
  simp [writeStatus, this]

/-- An event that commits no byte writes the DISPLAY sub-block only if it is `Setup`, `SetRefreshTiming` or `FrameTick`. -/
theorem deliver_disp_of_not_committed {s : State} {e : Event} (h : committed s e = none) :
    e = .setup ∨ (∃ r, e = .setRefreshTiming r ∧ s.ready = true ∧ (deliver s e).disp = s.disp.setRound r) ∨
      (∃ t, e = .frameTick t ∧ s.ready = true ∧ pixbufMin ≤ t.length ∧ (deliver s e).disp = frameFlush s.disp) ∨
      (deliver s e).disp = s.disp := by
  cases hr : s.ready with
  | false =>
    cases e with
    | setup => exact .inl rfl
    | teardown => exact .inr (.inr (.inr rfl))
    | regWrite reg v =>
      cases reg with
      | other n => exact .inr (.inr (.inr rfl))
      | _ => exact .inr (.inr (.inr (by simp [deliver, gate_of_not_ready hr])))
    | _ => exact .inr (.inr (.inr (by simp [deliver, gate_of_not_ready hr])))
  | true =>
    cases e with
    | setup => exact .inl rfl
    | teardown => exact .inr (.inr (.inr rfl))
    | sclEdge l =>
      refine .inr (.inr (.inr ?_))
      simp only [deliver, gate_of_ready hr]
      rw [clockEdge_of_not_committed hr h]
    | sdaEdge l =>
      refine .inr (.inr (.inr ?_))
      simp only [deliver, gate_of_ready hr, dataEdge]
      split
      · rfl
      · split <;> rfl
    | regWrite reg v =>
      refine .inr (.inr (.inr ?_))
      cases reg with
      | data => simp [deliver, gate_of_ready hr, latchData]
      | status => simp only [deliver, gate_of_ready hr, writeStatus_of_not_committed hr h]
      | other n => rfl
    | setRefreshTiming r => exact .inr (.inl ⟨r, rfl, rfl, by simp [deliver, gate_of_ready hr, refreshTiming]⟩)
    | frameTick t =>
      by_cases ht : t.length < pixbufMin
      · exact .inr (.inr (.inr (by simp [deliver, gate_of_ready hr, frameTick, ht])))
      · exact .inr (.inr (.inl ⟨t, rfl, rfl, Nat.not_lt.mp ht, by simp [deliver, gate_of_ready hr, frameTick, ht]⟩))
    | toggleEdge l now => exact .inr (.inr (.inr (by simp [deliver, gate_of_ready hr, toggle])))
    | sampleTick => exact .inr (.inr (.inr (by simp [deliver, gate_of_ready hr, tick])))
    | readAudio t =>
      refine .inr (.inr (.inr ?_))
      simp only [deliver, gate_of_ready hr, readAll]
      split <;> simp

/-! ### What a committed byte writes, by context -/

/-- The instructions of the command table: every one of them goes on in CommandPhase. -/
def isTableCommand : Instr → Bool
  | .setLowCol _ => true
  | .setHighCol _ => true
  | .setMemMode => true
  | .setContrast => true
  | .segRemap0 => true
  | .segRemap1 => true
  | .normalDisplay => true
  | .invertDisplay => true
  | .displayOff => true
  | .displayOn => true
  | .setPage _ => true
  | .comScanInc => true
  | .comScanDec => true
  | _ => false

theorem isTableCommand_decodeOpcode {b : Byte} (h : inCommandTable b = true) : isTableCommand (decodeOpcode [] b) = true := by
  revert b; decide +kernel

/-- A command-phase byte keeps the framebuffer, the grid and `round`; if it leaves CommandPhase it is for Idle; it makes Skip
pending only with extra commands. -/
theorem commitByte_frame_command {s : State} (h : s.bus.bst = .commandPhase) (b : Byte) :
    (commitByte b s).disp.fb = s.disp.fb ∧ (commitByte b s).disp.grid = s.disp.grid ∧
      (commitByte b s).disp.round = s.disp.round ∧
      ((commitByte b s).bus.bst = .commandPhase ∨ (commitByte b s).bus.bst = .idle) ∧
      ((commitByte b s).disp.pend = .skip → s.disp.pend = .skip ∨ s.cfg.extCmds ≠ []) := by
  rw [commitByte_command h]
  cases hp : s.disp.pend with
  | contrast => exact ⟨rfl, rfl, rfl, .inl h, fun h => by simp [decodeCommand, runByte, paramContrast] at h⟩
  | skip => exact ⟨rfl, rfl, rfl, .inl h, fun _ => .inl rfl⟩
  | memMode =>
    simp only [decodeCommand, runByte, paramMemMode]
    split
    · exact ⟨rfl, rfl, rfl, .inl h, fun h => by simp at h⟩
    · exact ⟨rfl, rfl, rfl, .inr rfl, fun h => by simp [setPend] at h⟩
  | none =>
    simp only [decodeCommand]
    cases ht : inCommandTable b
    · rw [decodeOpcode_of_notInTable _ ht]
      cases hf : findExt s.cfg.extCmds b with
      | none => exact ⟨rfl, rfl, rfl, .inr rfl, fun h => by simp [runByte, hp] at h⟩
      | some e =>
        have hne : s.cfg.extCmds ≠ [] := fun h => by rw [h] at hf; simp [findExt] at hf
        obtain ⟨_, _, p⟩ := e
        cases p <;> exact ⟨rfl, rfl, rfl, .inl h, fun _ => .inr hne⟩
    · rw [decodeOpcode_of_inTable _ ht]
      have hc := isTableCommand_decodeOpcode ht
      revert hc
      generalize decodeOpcode [] b = i
      cases i <;> simp only [isTableCommand, Bool.false_eq_true, false_imp_iff, true_imp_iff] <;>
        exact ⟨rfl, rfl, rfl, .inl h, fun h => by
          simp [runByte, hp, setLowCol, setHighCol, setPage, setPend, segRemap, invertFlag, displayOnOff, comScan] at h⟩

/-- A data byte writes one byte of the framebuffer, the cursor, and the grid only where the cursor wraps to the first page under
round-refresh. -/
theorem dataByte_frame (b : Byte) (s : State) :
    dataByte b s = { s with disp := { s.disp with
        fb := Memory.write s.disp.fb (fbAddress s.disp.page s.disp.col) b
        page := (dataByte b s).disp.page, col := (dataByte b s).disp.col, grid := (dataByte b s).disp.grid } } ∧
      ((dataByte b s).disp.grid ≠ s.disp.grid →
        s.disp.mode = .horizontal ∧ s.disp.page = 7 ∧ s.disp.col = 127 ∧ s.disp.round = true) := by
  simp only [dataByte, State.setDisp_disp]
  rcases advanceCursor_cases (storeStrip b s.disp) with ⟨_, h⟩ | ⟨_, _, h⟩ | ⟨_, _, _, h⟩ | ⟨_, _, _, _, h⟩ | ⟨h1, h2, h3, h4, h⟩ <;>
    rw [h]
  · exact ⟨rfl, fun hh => absurd rfl hh⟩
  · exact ⟨rfl, fun hh => absurd rfl hh⟩
  · exact ⟨rfl, fun hh => absurd rfl hh⟩
  · exact ⟨rfl, fun hh => absurd rfl hh⟩
  · exact ⟨rfl, fun _ => ⟨h2, h3, h1, h4⟩⟩

/-- In Idle, Started and AddressPhase a committed byte keeps the DISPLAY sub-block. -/
theorem commitByte_disp_elsewhere {s : State} (h1 : s.bus.bst ≠ .commandPhase) (h2 : s.bus.bst ≠ .dataPhase) (b : Byte) :
    (commitByte b s).disp = s.disp := by
  cases hb : s.bus.bst with
  | idle => rw [commitByte_idle hb]
  | started =>
    rw [commitByte_ok (i := .addr (addrField b) (b.getLsbD 0)) (by simp [decodeByte, hb])]
    simp only [runByte, commitAddress]
    split <;> rfl
  | addressPhase =>
    by_cases h3 : b = 0x00
    · rw [commitByte_ok (i := .ctrlCmd) (by simp [decodeByte, hb, decodeControl, h3])]; rfl
    · by_cases h4 : b = 0x40
      · rw [commitByte_ok (i := .ctrlData) (by simp [decodeByte, hb, decodeControl, h4])]; rfl
      · simp only [commitByte, decodeByte, hb, decodeControl, h3, h4, if_false, rejectedByte]; rfl
  | commandPhase => exact absurd hb h1
  | dataPhase => exact absurd hb h2

end Sys2Proof.Machine
end

