-- ==== Sys2Proof/Laws/PerInstr.lean ====
section
/-! SUPPORT. Statements made instruction by instruction. -/

namespace Sys2Proof.Laws.EncodingShape

/-- An instruction is written at its own level of R60: a byte-level row as a byte, an event as an event, a pseudo-instruction as a
list of events. -/
def Statement (i : Instr) : Prop :=
  ∀ cfg : Config,
    match i.kind, encode cfg i with
    | .byte, .byte _ _ _ => True
    | .event, .event _ => True
    | .script, .script _ => True
    | _, _ => False

theorem addr (a : BitVec 7) (rw : Bool) : Statement (.addr a rw) := fun _ => trivial
theorem ctrlCmd : Statement .ctrlCmd := fun _ => trivial
theorem ctrlData : Statement .ctrlData := fun _ => trivial
theorem setLowCol (n : BitVec 4) : Statement (.setLowCol n) := fun _ => trivial
theorem setHighCol (n : BitVec 4) : Statement (.setHighCol n) := fun _ => trivial
theorem setMemMode : Statement .setMemMode := fun _ => trivial
theorem paramMemMode (v : Byte) : Statement (.paramMemMode v) := fun _ => trivial
theorem setContrast : Statement .setContrast := fun _ => trivial
theorem paramContrast (v : Byte) : Statement (.paramContrast v) := fun _ => trivial
theorem segRemap0 : Statement .segRemap0 := fun _ => trivial
theorem segRemap1 : Statement .segRemap1 := fun _ => trivial
theorem normalDisplay : Statement .normalDisplay := fun _ => trivial
theorem invertDisplay : Statement .invertDisplay := fun _ => trivial
theorem displayOff : Statement .displayOff := fun _ => trivial
theorem displayOn : Statement .displayOn := fun _ => trivial
theorem setPage (p : BitVec 3) : Statement (.setPage p) := fun _ => trivial
theorem comScanInc : Statement .comScanInc := fun _ => trivial
theorem comScanDec : Statement .comScanDec := fun _ => trivial
theorem unrecognised (b : Byte) : Statement (.unrecognised b) := fun _ => trivial
theorem extCmd (b : Byte) (p : Bool) : Statement (.extCmd b p) := fun _ => trivial
theorem paramSkip (v : Byte) : Statement (.paramSkip v) := fun _ => trivial
theorem data (d : Byte) : Statement (.data d) := fun _ => trivial
theorem setup : Statement .setup := fun _ => trivial
theorem teardown : Statement .teardown := fun _ => trivial
theorem sclEdge (l : Bool) : Statement (.sclEdge l) := fun _ => trivial
theorem sdaEdge (l : Bool) : Statement (.sdaEdge l) := fun _ => trivial
theorem regWriteData (v : Byte) : Statement (.regWriteData v) := fun _ => trivial
theorem regWriteStatus (v : Byte) : Statement (.regWriteStatus v) := fun _ => trivial
theorem setRefreshTiming (r : Bool) : Statement (.setRefreshTiming r) := fun _ => trivial
theorem frameTick (t : List Pixel) : Statement (.frameTick t) := fun _ => trivial
theorem toggleEdge (l : Bool) (now : Cycle) : Statement (.toggleEdge l now) := fun _ => trivial
theorem sampleTick : Statement .sampleTick := fun _ => trivial
theorem readAudio (t : List Byte) : Statement (.readAudio t) := fun _ => trivial
theorem start : Statement .start := fun _ => trivial
theorem restart : Statement .restart := fun _ => trivial
theorem stop : Statement .stop := fun _ => trivial
theorem bit (d : Bool) : Statement (.bit d) := fun _ => trivial
theorem ack : Statement .ack := fun _ => trivial
theorem byte (v : Byte) : Statement (.byte v) := fun _ => trivial
theorem txn (bs : List Byte) : Statement (.txn bs) := fun _ => trivial
theorem cmds (cs : List Byte) : Statement (.cmds cs) := fun _ => trivial
theorem dataTxn (ds : List Byte) : Statement (.dataTxn ds) := fun _ => trivial
theorem fast (v : Byte) : Statement (.fast v) := fun _ => trivial

end Sys2Proof.Laws.EncodingShape
end

