-- ==== Sys2Proof/Tests/Slice0.lean ====
section
/-! SUPPORT. The tests: ill-formed terms refused, words of the spec decoded, vectors of `spec/95_test_vectors.md` one step each, and
for every obligation with hypotheses a state and operands that meet them. Every expected value is the spec's. The theorems are checked
one after another (`Elab.async` off): a hundred kernel evaluations at once would each take a thread. -/

namespace Sys2Proof.Tests

set_option Elab.async false

open Sys2Proof Sys2Proof.Machine

/-! ### The instantiation of the vectors -/

/-- The parameters every vector uses (`95_test_vectors.md`, opening). -/
def cfg0 : Config where
  devAddr := 0x3C
  srSentinel := 0xF0
  audioBase := 128
  audioAmp := 64
  extCmds := []
  resetCfg := ResetCfg.spec

/-- The one extra command of V25b. -/
def extra : List ExtCmd := [⟨0xA8, 0xFF, true⟩]

/-- State S0: right after `SETUP`. -/
def s0 : State where
  cfg := cfg0
  input := []
  results := []
  fresh := 1
  ready := true
  bus := Bus.reset 0
  disp := Display.reset ResetCfg.spec
  audio := Audio.reset

/-- S0 with the transaction in a state, eight bits in, the clock low. -/
def onBus (bst : BusState) (acc : Byte) : State :=
  { s0 with bus := { s0.bus with scl := false, bst := bst, cnt := 8, acc := acc } }

/-- S0 with another audio sub-block. -/
def withAudio (tog : Bool) (tlast tot high : Cycle) (abuf : List Byte) : State :=
  { s0 with audio := { tog := tog, tlast := tlast, tot := tot, high := high, abuf := abuf } }

/-- The state an instruction leads to. -/
def after (i : Instr) (s : State) : State :=
  match exec i s with
  | .next t => t
  | .fault _ => s
  | .refused _ => s

/-! ### Well-formedness refuses -/

theorem test_wf_unrecognised_row : (Instr.unrecognised 0xAF).wf [] = false := by decide
theorem test_wf_unrecognised_extra : (Instr.unrecognised 0xA8).wf extra = false := by decide
theorem test_wf_extCmd_absent : (Instr.extCmd 0xA8 true).wf [] = false := by decide
theorem test_wf_extCmd_count : (Instr.extCmd 0xA8 false).wf extra = false := by decide
theorem test_wf_extCmd_row : (Instr.extCmd 0xAF true).wf [⟨0xAF, 0xFF, true⟩] = false := by decide
theorem test_wf_accepts : (Instr.unrecognised 0xA8).wf [] = true ∧ (Instr.extCmd 0xA8 true).wf extra = true := by decide
theorem test_cfg_amplitude : ¬ Config.wf { cfg0 with audioAmp := 128 } := by decide +kernel
theorem test_cfg_overlap : ¬ Config.wf { cfg0 with extCmds := [⟨0xB0, 0xF0, false⟩] } := by decide +kernel
theorem test_cfg_skip : ¬ Config.wf { cfg0 with resetCfg := { ResetCfg.spec with pend := .skip } } := by decide +kernel
theorem test_cfg_accepts : Config.wf cfg0 ∧ Config.wf { cfg0 with extCmds := extra } := by decide +kernel

/-! ### Words written out from the encodings (R62 to R66) -/

theorem test_decode_addr : decodeByte [] .started .none 0b01111000 = .ok (.addr 0b0111100 false) := by decide
theorem test_decode_addr_read : decodeByte [] .started .none 0b01111001 = .ok (.addr 0b0111100 true) := by decide
theorem test_decode_ctrlCmd : decodeByte [] .addressPhase .none 0b00000000 = .ok .ctrlCmd := by decide
theorem test_decode_ctrlData : decodeByte [] .addressPhase .none 0b01000000 = .ok .ctrlData := by decide
theorem test_decode_ctrl_invalid : decodeByte [] .addressPhase .none 0b10000000 = .error .badControl := by decide
theorem test_decode_setLowCol : decodeByte [] .commandPhase .none 0b00000101 = .ok (.setLowCol 5) := by decide
theorem test_decode_setHighCol : decodeByte [] .commandPhase .none 0b00011111 = .ok (.setHighCol 15) := by decide
theorem test_decode_setMemMode : decodeByte [] .commandPhase .none 0b00100000 = .ok .setMemMode := by decide
theorem test_decode_paramMemMode : decodeByte [] .commandPhase .memMode 0b00000010 = .ok (.paramMemMode 2) := by decide
theorem test_decode_setContrast : decodeByte [] .commandPhase .none 0b10000001 = .ok .setContrast := by decide
theorem test_decode_paramContrast : decodeByte [] .commandPhase .contrast 0b10101111 = .ok (.paramContrast 0xAF) := by decide
theorem test_decode_segRemap0 : decodeByte [] .commandPhase .none 0b10100000 = .ok .segRemap0 := by decide
theorem test_decode_segRemap1 : decodeByte [] .commandPhase .none 0b10100001 = .ok .segRemap1 := by decide
theorem test_decode_normalDisplay : decodeByte [] .commandPhase .none 0b10100110 = .ok .normalDisplay := by decide
theorem test_decode_invertDisplay : decodeByte [] .commandPhase .none 0b10100111 = .ok .invertDisplay := by decide
theorem test_decode_displayOff : decodeByte [] .commandPhase .none 0b10101110 = .ok .displayOff := by decide
theorem test_decode_displayOn : decodeByte [] .commandPhase .none 0b10101111 = .ok .displayOn := by decide
theorem test_decode_setPage : decodeByte [] .commandPhase .none 0b10110101 = .ok (.setPage 5) := by decide
theorem test_decode_comScanInc : decodeByte [] .commandPhase .none 0b11000000 = .ok .comScanInc := by decide
theorem test_decode_comScanDec : decodeByte [] .commandPhase .none 0b11001000 = .ok .comScanDec := by decide
theorem test_decode_unrecognised : decodeByte [] .commandPhase .none 0b10101000 = .ok (.unrecognised 0xA8) := by decide
theorem test_decode_extCmd : decodeByte extra .commandPhase .none 0b10101000 = .ok (.extCmd 0xA8 true) := by decide
theorem test_decode_paramSkip : decodeByte extra .commandPhase .skip 0b00111111 = .ok (.paramSkip 0x3F) := by decide
theorem test_decode_data : decodeByte [] .dataPhase .none 0b10000001 = .ok (.data 0x81) := by decide
theorem test_decode_idle : decodeByte [] .idle .none 0b01111000 = .error .noTransaction := by decide

/-- The events are their own encoding (R5, R74). -/
theorem test_decode_events :
    decodeEvent .setup = .ok .setup ∧ decodeEvent .teardown = .ok .teardown ∧ decodeEvent (.sclEdge true) = .ok (.sclEdge true) ∧
    decodeEvent (.sdaEdge false) = .ok (.sdaEdge false) ∧ decodeEvent (.regWrite .data 1) = .ok (.regWriteData 1) ∧
    decodeEvent (.regWrite .status 2) = .ok (.regWriteStatus 2) ∧
    decodeEvent (.regWrite (.other 3) 2) = .error .unwatchedRegister := by decide

theorem test_decode_call_events :
    decodeEvent (.setRefreshTiming true) = .ok (.setRefreshTiming true) ∧ decodeEvent (.frameTick [1]) = .ok (.frameTick [1]) ∧
    decodeEvent (.toggleEdge true 9) = .ok (.toggleEdge true 9) ∧ decodeEvent .sampleTick = .ok .sampleTick ∧
    decodeEvent (.readAudio [1]) = .ok (.readAudio [1]) := by decide

/-- The pin statements of the phrases of R76; the first byte of program P1 is 27 of them and its script 248. -/
theorem test_script_expansions :
    encode cfg0 .start = .script [.sdaEdge false, .sclEdge false] ∧
    encode cfg0 .restart = .script [.sdaEdge true, .sclEdge true, .sdaEdge false, .sclEdge false] ∧
    encode cfg0 .stop = .script [.sdaEdge false, .sclEdge true, .sdaEdge true] ∧
    encode cfg0 (.bit true) = .script [.sdaEdge true, .sclEdge true, .sclEdge false] ∧
    encode cfg0 .ack = .script [.sdaEdge true, .sclEdge true, .sclEdge false] ∧
    encode cfg0 (.fast 0xAF) = .script [.regWrite .data 0xAF, .regWrite .status 0xF0] ∧
    (byteEvents 0x78).length = 27 ∧
    encode cfg0 (.cmds [0xAF]) = encode cfg0 (.txn [0x78, 0x00, 0xAF]) ∧
    encode cfg0 (.dataTxn [0x12]) = encode cfg0 (.txn [0x78, 0x40, 0x12]) ∧
    (txnEvents [0x78, 0x00, 0xAF, 0x81, 0xFF, 0x20, 0x00, 0xA1, 0xC8]).length = 248 := by decide +kernel

/-- The bits of 0x78, most significant first (program P1). -/
theorem test_script_byte :
    encode cfg0 (.byte 0x78) = .script (bitEvents false ++ bitEvents true ++ bitEvents true ++ bitEvents true ++ bitEvents true ++
      bitEvents false ++ bitEvents false ++ bitEvents false ++ ackEvents) := by decide +kernel

/-- The opcode table's words, in its numbering. -/
theorem test_table_words :
    decodeTableWord 8 0x78 = some (.addr 0x3C false) ∧ decodeTableWord 8 0x40 = some .ctrlData ∧
    decodeTableWord 8 0xAF = some .displayOn ∧ decodeTableWord 8 0xB5 = some (.setPage 5) ∧ decodeTableWord 8 0x00 = some .ctrlCmd ∧
    decodeTableWord 8 0x13 = some (.setHighCol 3) ∧ decodeTableWord 16 0x13 = none := by decide

theorem test_fetch_word :
    ∃ t, step (s0.withFetchWord 8 0xAF) = .next t ∧ t.disp.on = true ∧ t.bus.cnt = 0 := ⟨_, rfl, by decide +kernel⟩

/-! ### The bus (V1 to V16) -/

theorem test_V1_start : (after .start s0).bus = { s0.bus with scl := false, sda := false, bst := .started, cnt := 0 } := by
  decide +kernel

theorem test_V1_byte :
    (after (.byte 0x78) (after .start s0)).bus =
      { scl := false, sda := true, bst := .addressPhase, cnt := 0, acc := 0x78, dr := 0 } := by decide +kernel

theorem test_V3_scl : after (.sclEdge true) (after (.sclEdge false) s0) = s0 := by decide +kernel

theorem test_V4_bit :
    (after (.bit true) { s0 with bus := { s0.bus with scl := false, bst := .started, cnt := 2, acc := 0x01 } }).bus =
      { scl := false, sda := true, bst := .started, cnt := 3, acc := 0x03, dr := 0 } := by decide +kernel

theorem test_V4_restart :
    (after .restart { s0 with bus := { s0.bus with scl := false, bst := .started, cnt := 3, acc := 0x03 } }).bus =
      { scl := false, sda := false, bst := .started, cnt := 0, acc := 0x07, dr := 0 } := by decide +kernel

theorem test_V5_stop :
    (after .stop { s0 with bus := { s0.bus with scl := false, bst := .commandPhase, cnt := 2, acc := 0x02 } }).bus =
      { scl := true, sda := true, bst := .idle, cnt := 0, acc := 0x04, dr := 0 } := by decide +kernel

theorem test_V6_sda :
    (after (.sdaEdge false) s0).bus.bst = .started ∧ (after (.sdaEdge true) (after (.sdaEdge false) s0)).bus.bst = .idle := by
  decide +kernel

theorem test_V7_sda_low : (after (.sdaEdge false) (after (.sclEdge false) s0)).bus.bst = .idle := by decide +kernel

theorem test_V9_txn : (after (.txn [0x7A, 0x00, 0xAF]) s0).disp = s0.disp ∧ (after (.txn [0x7A, 0x00, 0xAF]) s0).bus.cnt = 0 := by
  decide +kernel

theorem test_V10_txn : (after (.txn [0x79, 0x00, 0xAF]) s0).disp.on = true := by decide +kernel

theorem test_V11_ctrl : commitByte 0x80 (onBus .addressPhase 0) = desync (onBus .addressPhase 0) := by decide +kernel

theorem test_V12_stop :
    (after .stop (onBus .commandPhase 0xAF)).disp.on = true ∧ (after .stop (onBus .commandPhase 0xAF)).bus.bst = .idle ∧
    (after .stop (onBus .commandPhase 0xAF)).bus.cnt = 0 := by decide +kernel

theorem test_V13_status :
    after (.regWriteStatus 0x00) (onBus .commandPhase 0) = onBus .commandPhase 0 ∧
    (after (.regWriteStatus 0xF0) { onBus .commandPhase 0 with bus := { (onBus .commandPhase 0).bus with dr := 0xAF } }).disp.on =
      true := by decide +kernel

theorem test_V13_latch : (after (.regWriteData 0xAF) s0).bus = { s0.bus with dr := 0xAF } := by decide +kernel

theorem test_V14_fast :
    (after (.fast 0xA7) { s0 with bus := { s0.bus with scl := false, bst := .commandPhase, cnt := 3, acc := 0x05 } }).disp.inv =
      true ∧
    (after (.fast 0xA7) { s0 with bus := { s0.bus with scl := false, bst := .commandPhase, cnt := 3, acc := 0x05 } }).bus =
      { scl := false, sda := true, bst := .commandPhase, cnt := 0, acc := 0x05, dr := 0xA7 } := by decide +kernel

theorem test_V15_fast : after (.fast 0x78) s0 = { s0 with bus := { s0.bus with dr := 0x78 } } := by decide +kernel

theorem test_P1_ack : (after .ack (onBus .started 0x78)).bus.bst = .addressPhase := by decide +kernel

theorem test_addr : (after (.addr 0x3C false) (onBus .started 0)).bus.bst = .addressPhase ∧
    (after (.addr 0x3D false) (onBus .started 0)).bus.bst = .idle := by decide +kernel

theorem test_ctrlCmd : (after .ctrlCmd (onBus .addressPhase 0)).bus.bst = .commandPhase := by decide +kernel
theorem test_ctrlData : (after .ctrlData (onBus .addressPhase 0)).bus.bst = .dataPhase := by decide +kernel

/-! ### Commands (V17 to V25b) -/

theorem test_V17_columns :
    (after (.cmds [0x05, 0x13]) s0).disp.col = 53 ∧ (after (.cmds [0x0E]) (after (.cmds [0x05, 0x13]) s0)).disp.col = 62 := by
  decide +kernel

theorem test_V18_setLowCol : (after (.setLowCol 3) { s0 with disp := { s0.disp with col := 126 } }).disp.col = 0x73 := by
  decide +kernel

theorem test_V18_setHighCol : (after (.setHighCol 2) { s0 with disp := { s0.disp with col := 0x73 } }).disp.col = 0x23 := by
  decide +kernel

theorem test_V19_setHighCol : (after (.setHighCol 15) { s0 with disp := { s0.disp with col := 5 } }).disp.col = 117 := by
  decide +kernel

theorem test_V20_setPage : (after (.setPage 5) s0).disp = { s0.disp with page := 5 } := by decide +kernel

theorem test_V21_setMemMode : (after .setMemMode s0).disp.pend = .memMode := by decide +kernel

theorem test_V21_paramMemMode :
    (after (.paramMemMode 0xFC) s0).disp.mode = .horizontal ∧
    (after (.paramMemMode 0xFE) { s0 with disp := { s0.disp with mode := .horizontal } }).disp.mode = .page := by decide +kernel

theorem test_V22_bad_mode :
    (after (.cmds [0x20, 0x01, 0xAF]) s0).disp = s0.disp ∧
    (after (.paramMemMode 0x03) { onBus .commandPhase 0 with disp := { s0.disp with pend := .memMode } }) =
      { onBus .idle 0 with disp := s0.disp } := by decide +kernel

theorem test_V23_contrast : (after (.cmds [0x81, 0xAF]) s0).disp = { s0.disp with contrast := 0xAF } := by decide +kernel
theorem test_setContrast : (after .setContrast s0).disp.pend = .contrast := by decide +kernel
theorem test_paramContrast :
    (after (.paramContrast 0xAF) { s0 with disp := { s0.disp with pend := .contrast } }).disp = { s0.disp with contrast := 0xAF } := by
  decide +kernel

theorem test_V24_dataTxn :
    (after (.dataTxn [0x12]) { s0 with disp := { s0.disp with pend := .contrast } }).disp =
      { s0.disp with pend := .contrast, col := 1, fb := [(0, 0x12)] } := by decide +kernel

theorem test_V25_set :
    (after (.cmds [0xA1, 0xA7, 0xAF, 0xC8]) s0).disp =
      { s0.disp with segremap := true, inv := true, on := true, scandir := true } := by decide +kernel

theorem test_segRemap : (after .segRemap1 s0).disp.segremap = true ∧ (after .segRemap0 (after .segRemap1 s0)) = s0 := by decide +kernel
theorem test_invert :
    (after .invertDisplay s0).disp.inv = true ∧ (after .normalDisplay (after .invertDisplay s0)) = s0 := by decide +kernel
theorem test_display : (after .displayOn s0).disp.on = true ∧ (after .displayOff (after .displayOn s0)) = s0 := by decide +kernel
theorem test_comScan : (after .comScanDec s0).disp.scandir = true ∧ (after .comScanInc (after .comScanDec s0)) = s0 := by decide +kernel

theorem test_V25b_unrecognised : (after (.unrecognised 0xA8) (onBus .commandPhase 0)).bus.bst = .idle := by decide +kernel
theorem test_V25b_extCmd : (after (.extCmd 0xA8 true) (onBus .commandPhase 0)).disp.pend = .skip ∧
    (after (.extCmd 0xA8 true) (onBus .commandPhase 0)).bus = (onBus .commandPhase 0).bus := by decide +kernel
theorem test_V25b_paramSkip :
    (after (.paramSkip 0x3F) { s0 with disp := { s0.disp with pend := .skip } }) = s0 := by decide +kernel

/-! ### Data, flush, render (V26 to V37) -/

theorem test_V26_data :
    (after (.data 0xAA) { s0 with disp := { s0.disp with mode := .horizontal, col := 127 } }).disp =
      { s0.disp with mode := .horizontal, page := 1, col := 0, fb := [(127, 0xAA)] } := by decide +kernel

theorem test_V27_data :
    (after (.data 0x55) { s0 with disp := { s0.disp with page := 3, col := 127 } }).disp =
      { s0.disp with page := 3, col := 0, fb := [(511, 0x55)] } := by decide +kernel

/-- The last byte of V28: the cursor wraps and the flush includes the byte just stored. -/
theorem test_V28_flush :
    (after (.data 0xFF) { s0 with disp := { s0.disp with mode := .horizontal, page := 7, col := 127, round := true } }).disp.page = 0 ∧
    gridBit (after (.data 0xFF)
      { s0 with disp := { s0.disp with mode := .horizontal, page := 7, col := 127, round := true } }).disp 56 127 = true := by
  decide +kernel

/-- V30: the strip 0x81 at (2, 5) lights rows 16 and 23 of column 5 and no other. -/
theorem test_V30_flush :
    gridBit (flush { s0.disp with fb := [(261, 0x81)] }) 16 5 = true ∧
    gridBit (flush { s0.disp with fb := [(261, 0x81)] }) 23 5 = true ∧
    gridBit (flush { s0.disp with fb := [(261, 0x81)] }) 17 5 = false ∧
    gridBit (flush { s0.disp with fb := [(261, 0x81)] }) 16 6 = false := by decide +kernel

theorem test_V30_pixels :
    renderPixel (flush { s0.disp with on := true, fb := [(261, 0x81)] }) 16 5 = 0xFFBFBFBF ∧
    renderPixel (flush { s0.disp with on := true, fb := [(261, 0x81)] }) 17 5 = 0x00000000 := by decide +kernel

/-- V32: the mirrored columns and rows. -/
theorem test_V32_mirrored :
    renderPixel (flush { s0.disp with on := true, segremap := true, fb := [(261, 0x81)] }) 16 122 = 0xFFBFBFBF ∧
    renderPixel (flush { s0.disp with on := true, scandir := true, fb := [(261, 0x81)] }) 40 5 = 0xFFBFBFBF ∧
    renderPixel (flush { s0.disp with on := true, scandir := true, fb := [(261, 0x81)] }) 47 5 = 0xFFBFBFBF := by decide +kernel

theorem test_V33_gray :
    gray 0x00 = 0xFF808080 ∧ gray 0x01 = 0xFF808080 ∧ gray 0x7F = 0xFFBFBFBF ∧ gray 0x80 = 0xFFC0C0C0 ∧ gray 0xFE = 0xFFFFFFFF ∧
      gray 0xFF = 0xFFFFFFFF := by decide

theorem test_V36_short : (after (.frameTick [1, 2]) s0) = { s0 with results := [.frame false [1, 2]] } := by decide +kernel

/-- V34: with the display off the frame tick flushes and returns true, and the target keeps its elements. -/
theorem test_V34_off :
    (after (.frameTick (List.replicate 8192 0x12345678)) s0).results = [.frame true (List.replicate 8192 0x12345678)] := by
  have h : ¬ (List.replicate 8192 (0x12345678 : Pixel)).length < pixbufMin := by rw [List.length_replicate]; decide
  show (gate _ (frameTick (List.replicate 8192 0x12345678)) s0).results = _
  rw [gate_of_ready (s := s0) rfl, frameTick, if_neg h, render_off (by decide)]
  rfl

theorem test_V37_timing :
    (after (.setRefreshTiming true) s0) = { s0 with disp := { s0.disp with round := true }, results := [.timing true] } ∧
    (after (.setRefreshTiming true) { s0 with ready := false }).results = [.timing false] := by decide +kernel

/-! ### Audio (V40 to V47) -/

theorem test_V40_toggle : (after (.toggleEdge true 500) (withAudio false 250 250 250 [])).audio =
    { tog := true, tlast := 500, tot := 500, high := 250, abuf := [] } := by decide +kernel

theorem test_V40_tick : (after .sampleTick (withAudio true 500 500 250 [])).audio =
    { tog := true, tlast := 500, tot := 0, high := 0, abuf := [160] } := by decide +kernel

theorem test_V42_toggle : (after (.toggleEdge false 600) (withAudio true 500 0 0 [160])).audio =
    { tog := false, tlast := 600, tot := 100, high := 100, abuf := [160] } := by decide +kernel

theorem test_V47_tick : (after .sampleTick (withAudio true 3 3 1 [])).audio.abuf = [149] ∧
    (after .sampleTick (withAudio true 3 3 2 [])).audio.abuf = [170] := by decide +kernel

theorem test_V45_short : (after (.readAudio [9]) (withAudio false 0 0 0 [160, 144])) =
    { withAudio false 0 0 0 [160, 144] with results := [.audio 0 [9]] } := by decide +kernel

theorem test_V45_read : (after (.readAudio (List.replicate 2048 0)) (withAudio false 0 0 0 [160, 144, 192, 144])) =
    { s0 with results := [.audio 4 (160 :: 144 :: 192 :: 144 :: List.replicate 2044 0)] } := by decide +kernel

/-! ### Setup and teardown (V49 to V52) -/

theorem test_V51_setup : (after .setup { s0 with ready := false, disp := { s0.disp with on := true, fb := [(0, 0xFF)] } }).disp =
    s0.disp := by decide +kernel

theorem test_V50_teardown : (after .teardown (after .teardown s0)) = { s0 with ready := false } := by decide +kernel

/-! ### Witnesses: what an obligation assumes can be met, clause by clause -/

/-- S0 with the next events given. -/
def awaiting (es : List Event) : State := { s0 with input := es }

/-- A state with the next events given. -/
def next (s : State) (es : List Event) : State := { s with input := es }

/-- S0 after a teardown. -/
def s0down : State := { s0 with ready := false }

/-- The state a step leads to. -/
def stepped (s : State) : State :=
  match step s with
  | .next t => t
  | .fault _ => s
  | .refused _ => s

theorem witness_DecodingAnEncodingGivesTheInstructionBack :
    (Instr.extCmd 0xA8 true).wf extra = true ∧ (Instr.extCmd 0xA8 true).kind ≠ .script ∧
    (Instr.unrecognised 0xFF).wf extra = true ∧ (Instr.setPage 7).wf extra = true ∧ (Instr.setPage 7).kind ≠ .script := by decide

theorem witness_EncodingADecodedByteGivesTheByteBack :
    decodeByte extra .commandPhase .none 0xA8 = .ok (.extCmd 0xA8 true) ∧
    decodeByte extra .commandPhase .contrast 0xAF = .ok (.paramContrast 0xAF) ∧
    decodeByte extra .started .none 0xFF = .ok (.addr 0x7F true) ∧ decodeByte extra .addressPhase .none 0x40 = .ok .ctrlData := by
  decide

/-- The ends of every range of the map, and the bytes just outside. -/
theorem witness_CommandMapByAscendingValue :
    decodeOpcode [] 0x00 = .setLowCol 0 ∧ decodeOpcode [] 0x0F = .setLowCol 15 ∧ decodeOpcode [] 0x10 = .setHighCol 0 ∧
    decodeOpcode [] 0x1F = .setHighCol 15 ∧ decodeOpcode [] 0x20 = .setMemMode ∧ decodeOpcode [] 0x21 = .unrecognised 0x21 ∧
    decodeOpcode [] 0xAF = .displayOn ∧ decodeOpcode [] 0xB0 = .setPage 0 ∧ decodeOpcode [] 0xB7 = .setPage 7 ∧
    decodeOpcode [] 0xB8 = .unrecognised 0xB8 ∧ decodeOpcode [] 0xC7 = .unrecognised 0xC7 ∧ decodeOpcode [] 0xC9 = .unrecognised 0xC9 ∧
    decodeOpcode extra 0xA8 = .extCmd 0xA8 true := by decide

theorem witness_StepRunsTheNextEvent :
    (awaiting [.sampleTick]).input = .sampleTick :: [] ∧ decodeEvent .sampleTick = .ok .sampleTick ∧
    decodeEvent (.regWrite (.other 0) 0) = .error .unwatchedRegister ∧ s0.input = [] := by decide

theorem witness_NinthPulseStepRunsTheByte :
    (next (onBus .commandPhase 0xAF) [.sclEdge true]).input = .sclEdge true :: [] ∧ (onBus .commandPhase 0xAF).ready = true ∧
    (onBus .commandPhase 0xAF).bus.scl = false ∧ (onBus .commandPhase 0xAF).bus.bst ≠ .idle ∧
    8 ≤ (onBus .commandPhase 0xAF).bus.cnt ∧ decodeByte [] .commandPhase .none 0xAF = .ok .displayOn := by decide +kernel

theorem witness_SentinelStepRunsTheLatchedByte :
    (next (onBus .started 0) [.regWrite .status 0xF0]).input = .regWrite .status s0.cfg.srSentinel :: [] ∧
    (onBus .started 0).ready = true ∧
    decodeByte [] (onBus .started 0).bus.bst (onBus .started 0).disp.pend (onBus .started 0).bus.dr = .ok (.addr 0 false) := by
  decide +kernel

theorem witness_TeardownClosesTheGate : (Instr.readAudio []).kind = .event ∧ Instr.readAudio [] ≠ .setup := by decide

theorem witness_NotReadyMeansInert : s0down.ready = false := rfl

theorem witness_NothingMovesUntilSetup :
    (next s0down [.frameTick [], .sampleTick, .setup]).ready = false ∧
    (next s0down [.frameTick [], .sampleTick, .setup]).input = [.frameTick [], .sampleTick] ++ [.setup] ∧
    Event.setup ∉ [Event.frameTick [], .sampleTick] := by decide +kernel

/-- The last bit sampled and the first pulse that commits. -/
theorem witness_ClockEdgeSamplesOrCommits :
    s0.ready = true ∧ (onBus .started 0).bus.scl = false ∧ (onBus .started 0).bus.bst ≠ .idle ∧
    (after (.sclEdge true) { onBus .started 0x3C with bus := { (onBus .started 0x3C).bus with cnt := 7, sda := false } }).bus =
      { scl := true, sda := false, bst := .started, cnt := 8, acc := 0x78, dr := 0 } ∧
    (after (.sclEdge true) (onBus .started 0x78)).bus.bst = .addressPhase := by decide +kernel

theorem witness_StartConditionFromAnyState :
    (after (.sclEdge true) (onBus .idle 0)).ready = true ∧ (after (.sclEdge true) (onBus .idle 0)).bus.scl = true ∧
    (after (.sclEdge true) (onBus .idle 0)).bus.sda = true := by decide +kernel

theorem witness_StopAndPlainDataEdges :
    s0.ready = true ∧ (after (.sdaEdge false) s0).bus.scl = true ∧ (after (.sdaEdge false) s0).bus.sda = false ∧
    (onBus .started 0).bus.scl = false ∧ s0.bus.sda = true := by decide +kernel

theorem witness_DataRegisterWriteLatches : s0.ready = true := rfl

theorem witness_StatusRegisterWriteCommits :
    s0.ready = true ∧ (0xF0 : Byte) = s0.cfg.srSentinel ∧ (0xF1 : Byte) ≠ s0.cfg.srSentinel ∧
    (awaiting [.regWrite (.other 3) 0xF0]).input = .regWrite (.other 3) 0xF0 :: [] := by decide +kernel

theorem witness_CommitDispatchesOnTheBusState :
    s0.bus.bst = .idle ∧ (onBus .started 0).bus.bst = .started ∧ (onBus .addressPhase 0).bus.bst = .addressPhase ∧
    (0x3F : Byte) ≠ 0x00 ∧ (0x3F : Byte) ≠ 0x40 ∧ (onBus .commandPhase 0).bus.bst = .commandPhase ∧
    (onBus .dataPhase 0).bus.bst = .dataPhase := by decide +kernel

theorem witness_DesyncWritesTheBusStateOnly :
    (0x3D : BitVec 7) ≠ s0.cfg.devAddr ∧ (onBus .addressPhase 0).bus.bst = .addressPhase ∧ (0x01 : Byte) ≠ 0x00 ∧
    (0x01 : Byte) ≠ 0x40 ∧ (0x03 : Byte).toNat % 2 = 1 ∧ s0.bus.bst = .idle ∧ s0.ready = true := by decide +kernel

theorem witness_BusStateFollowsTheTransitionTable :
    (awaiting [.sdaEdge false]).input = .sdaEdge false :: [] ∧
    step (awaiting [.sdaEdge false]) = .next (stepped (awaiting [.sdaEdge false])) := ⟨rfl, rfl⟩

/-- The start and the stop column of the table, the latter from the middle of a transaction. -/
theorem witness_BusStateFollowsTheTransitionTable_conditions :
    (stepped (awaiting [.sdaEdge false])).bus.bst = .started ∧
    (stepped { onBus .dataPhase 0 with
      bus := { (onBus .dataPhase 0).bus with scl := true, sda := false }, input := [.sdaEdge true] }).bus.bst = .idle := by
  decide +kernel

/-- The column of a good byte, row by row. -/
theorem witness_BusStateFollowsTheTransitionTable_good :
    (stepped (next s0 [.regWrite .status 0xF0])).bus.bst = .idle ∧
    (stepped (next (onBus .started 0x78) [.sclEdge true])).bus.bst = .addressPhase ∧
    (stepped (next (onBus .addressPhase 0x00) [.sclEdge true])).bus.bst = .commandPhase ∧
    (stepped (next (onBus .addressPhase 0x40) [.sclEdge true])).bus.bst = .dataPhase ∧
    (stepped (next (onBus .commandPhase 0xAF) [.sclEdge true])).bus.bst = .commandPhase ∧
    (stepped (next (onBus .dataPhase 0xA8) [.sclEdge true])).bus.bst = .dataPhase := by decide +kernel

/-- The column of a bad byte, row by row, with both bad bytes of CommandPhase. -/
theorem witness_BusStateFollowsTheTransitionTable_bad :
    (stepped (next (onBus .started 0x7A) [.sclEdge true])).bus.bst = .idle ∧
    (stepped (next (onBus .addressPhase 0x80) [.sclEdge true])).bus.bst = .idle ∧
    (stepped (next (onBus .commandPhase 0xA8) [.sclEdge true])).bus.bst = .idle ∧
    (stepped (next (after .setMemMode (onBus .commandPhase 0x03)) [.sclEdge true])).bus.bst = .idle := by decide +kernel

theorem witness_WireReconstructsEveryByte :
    s0.ready = true ∧ (after .start s0).bus.bst ≠ .idle ∧ (after .start s0).bus.cnt = 0 ∧ (after .start s0).bus.scl = false ∧
    (List.replicate 8 ([true, false], true)).length = 8 ∧
    (next (after .start s0) (wireByte (List.replicate 8 ([true, false], true)) [])).input =
      wireByte (List.replicate 8 ([true, false], true)) [] ++ [] := by decide +kernel

theorem witness_BothBytePathsAgree : (after .start s0).bus.cnt = 0 ∧ (after .start s0).bus.scl = false := by decide +kernel

/-- Two bits sampled, the other six different. -/
theorem witness_StaleAccumulatorBitsAreUnobservable :
    sameButStaleBits { onBus .started 0x02 with bus := { (onBus .started 0x02).bus with cnt := 2 } }
      { onBus .started 0xFE with bus := { (onBus .started 0xFE).bus with cnt := 2 } } := by
  refine ⟨rfl, fun _ => ?_⟩
  decide +kernel

theorem witness_PseudoInstructionsRunTheirExpansion :
    encode (awaiting (startEvents ++ [.sampleTick])).cfg .start = .script startEvents ∧
    (awaiting (startEvents ++ [.sampleTick])).input = startEvents ++ [.sampleTick] := ⟨rfl, rfl⟩

/-- The other nine: each is written as the events that wait. -/
theorem witness_PseudoInstructionsRunTheirExpansion_all :
    encode (awaiting restartEvents).cfg .restart = .script (awaiting restartEvents).input ∧
    encode (awaiting stopEvents).cfg .stop = .script (awaiting stopEvents).input ∧
    encode (awaiting (bitEvents true)).cfg (.bit true) = .script (awaiting (bitEvents true)).input ∧
    encode (awaiting ackEvents).cfg .ack = .script (awaiting ackEvents).input ∧
    encode (awaiting (byteEvents 0x78)).cfg (.byte 0x78) = .script (awaiting (byteEvents 0x78)).input ∧
    encode (awaiting (txnEvents [])).cfg (.txn []) = .script (awaiting (txnEvents [])).input ∧
    encode (awaiting (cmdsEvents cfg0 [0xAF])).cfg (.cmds [0xAF]) = .script (awaiting (cmdsEvents cfg0 [0xAF])).input ∧
    encode (awaiting (dataEvents cfg0 [0x12])).cfg (.dataTxn [0x12]) = .script (awaiting (dataEvents cfg0 [0x12])).input ∧
    encode (awaiting (fastEvents cfg0 0xFF)).cfg (.fast 0xFF) = .script (awaiting (fastEvents cfg0 0xFF)).input :=
  ⟨rfl, rfl, rfl, rfl, rfl, rfl, rfl, rfl, rfl⟩

/-- The lines high; the clock low with seven bits in, with eight, and with no transaction. -/
theorem witness_ScriptPhrasesOnTheLines :
    s0.ready = true ∧ s0.bus.scl = true ∧ s0.bus.sda = true ∧ (onBus .started 0).bus.scl = false ∧
    (onBus .started 0).bus.bst ≠ .idle ∧ 8 ≤ (onBus .started 0).bus.cnt ∧
    ({ (onBus .started 0).bus with cnt := 7 } : Bus).cnt < 8 ∧ (onBus .idle 0).bus.bst = .idle ∧ (onBus .idle 0).bus.scl = false := by
  decide +kernel

/-- A BIT after eight bits is the ninth pulse (R83, R200); an ACK at seven bits is the eighth bit, a 1 (R82). -/
theorem test_R200_stray_phrases :
    (after (.bit false) (onBus .commandPhase 0xAF)).disp.on = true ∧ (after (.bit false) (onBus .commandPhase 0xAF)).bus.cnt = 0 ∧
    (after .ack { onBus .commandPhase 0x3C with bus := { (onBus .commandPhase 0x3C).bus with cnt := 7 } }).bus =
      { scl := false, sda := true, bst := .commandPhase, cnt := 8, acc := 0x79, dr := 0 } ∧
    (after .ack (onBus .idle 0x3C)).bus = { (onBus .idle 0x3C).bus with sda := true } := by decide +kernel

theorem witness_StopSequenceCommitsAnUnacknowledgedByte :
    (onBus .commandPhase 0xAF).ready = true ∧ (onBus .commandPhase 0xAF).bus.scl = false ∧
    (onBus .commandPhase 0xAF).bus.bst ≠ .idle ∧ (onBus .commandPhase 0xAF).bus.cnt = 8 ∧
    ({ (onBus .commandPhase 0xAF).bus with cnt := 7 } : Bus).cnt < 8 ∧ (onBus .idle 0).bus.bst = .idle := by decide +kernel

theorem witness_ByteAndFastCommitTheirByte :
    (after .start s0).ready = true ∧ (after .start s0).bus.scl = false ∧ (after .start s0).bus.bst ≠ .idle ∧
    (after .start s0).bus.cnt = 0 := by decide +kernel

theorem witness_TransactionCommitsItsBytesInOrder : s0.ready = true ∧ s0.bus.scl = true ∧ s0.bus.sda = true := ⟨rfl, rfl, rfl⟩

theorem witness_CommandAndDataTransactions :
    (after (.cmds [0xAF]) s0).ready = true ∧ (after (.cmds [0xAF]) s0).bus.scl = true ∧ (after (.cmds [0xAF]) s0).bus.sda = true := by
  decide +kernel

theorem witness_DesyncSilencesTheTransaction :
    (onBus .idle 0).bus.bst = .idle ∧ (onBus .idle 0).bus.scl = false ∧ (onBus .idle 0).ready = true := ⟨rfl, rfl, rfl⟩

theorem witness_PendingParameterTakesTheNextByte :
    (onBus .commandPhase 0).bus.bst = .commandPhase ∧ (after .setContrast (onBus .commandPhase 0)).disp.pend = .contrast ∧
    (after .setMemMode (onBus .commandPhase 0)).disp.pend = .memMode ∧
    (after (.extCmd 0xA8 true) (onBus .commandPhase 0)).disp.pend = .skip ∧ (onBus .commandPhase 0).disp.pend = .none := by
  decide +kernel

theorem witness_ContrastParameterSetsTheLevel :
    (after .setContrast (onBus .commandPhase 0)).bus.bst = .commandPhase ∧
    (after .setContrast (onBus .commandPhase 0)).disp.pend = .contrast := by decide +kernel

/-- The four values of the low bits, at both ends of the byte. -/
theorem witness_ModeParameterSelectsOrDesyncs :
    (0x00 : Byte).toNat % 4 = 0 ∧ (0xFC : Byte).toNat % 4 = 0 ∧ (0xFE : Byte).toNat % 4 = 2 ∧
    ¬ (0x01 : Byte).toNat % 4 = 0 ∧ ¬ (0x01 : Byte).toNat % 4 = 2 ∧ ¬ (0xFF : Byte).toNat % 4 = 2 := by decide

theorem witness_PendingParameterOutlivesTheTransaction :
    step (next (onBus .commandPhase 0x81) [.sclEdge true]) = .next (stepped (next (onBus .commandPhase 0x81) [.sclEdge true])) ∧
    (stepped (next (onBus .commandPhase 0x81) [.sclEdge true])).disp.pend ≠ (onBus .commandPhase 0x81).disp.pend := by
  refine ⟨rfl, ?_⟩
  decide +kernel

/-- The cursor at the last strip under round-refresh, where every clause acts, and at the first, where none does. -/
theorem witness_DataByteStoresAndAdvances :
    Memory.wf [(0, 0x01), (1023, 0xFF)] ∧ Memory.wf s0.disp.fb ∧
    (after (.data 0x01) { s0 with disp := { s0.disp with mode := .horizontal, page := 7, col := 127, round := true } }).disp.fb =
      [(1023, 0x01)] ∧
    (after (.data 0x01) s0).disp.col = 1 := by
  refine ⟨?_, Memory.wf_nil, ?_, ?_⟩ <;> decide +kernel

theorem witness_FramebufferBytesChangeOnlyAtTheCursor :
    Memory.wf (next (onBus .dataPhase 0x81) [.sclEdge true]).disp.fb ∧ Event.sclEdge true ≠ .setup ∧
    step (next (onBus .dataPhase 0x81) [.sclEdge true]) = .next (stepped (next (onBus .dataPhase 0x81) [.sclEdge true])) ∧
    committed (next (onBus .dataPhase 0x81) [.sclEdge true]) (.sclEdge true) = some 0x81 ∧
    committed s0 .sampleTick = none := by
  refine ⟨Memory.wf_nil, ?_, rfl, ?_, rfl⟩ <;> decide +kernel

theorem witness_CursorLawOfDataBytes :
    (after (.paramMemMode 0) s0).disp.mode = .horizontal ∧ s0.disp.mode = .page := by decide +kernel

/-- A frame tick under frame-refresh changes the grid. -/
theorem witness_GridChangesOnlyAtAFlush_frame (target : List Pixel) (h : ¬ target.length < pixbufMin) :
    (stepped { awaiting [.frameTick target] with disp := { s0.disp with fb := [(0, 0xFF)] } }).disp.grid ≠ s0.disp.grid := by
  show (gate _ (frameTick target) { s0 with disp := { s0.disp with fb := [(0, 0xFF)] } }).disp.grid ≠ _
  rw [gate_of_ready rfl, frameTick, if_neg h]
  show flushGrid [(0, 0xFF)] ≠ Vector.replicate 64 0
  decide +kernel

/-- A data byte at the last strip under round-refresh changes the grid. -/
theorem witness_GridChangesOnlyAtAFlush_data :
    step { next (onBus .dataPhase 0xFF) [.sclEdge true] with
        disp := { s0.disp with mode := .horizontal, page := 7, col := 127, round := true } } =
      .next (stepped { next (onBus .dataPhase 0xFF) [.sclEdge true] with
        disp := { s0.disp with mode := .horizontal, page := 7, col := 127, round := true } }) ∧
    (stepped { next (onBus .dataPhase 0xFF) [.sclEdge true] with
        disp := { s0.disp with mode := .horizontal, page := 7, col := 127, round := true } }).disp.grid ≠ s0.disp.grid := by
  refine ⟨rfl, ?_⟩
  decide +kernel

theorem witness_SetRefreshTimingWritesRoundOnly : s0.ready = true ∧ s0down.ready = false := ⟨rfl, rfl⟩

/-- The shortest target that is long enough, and the longest that is not. -/
theorem witness_FrameTickFlushesAndRenders :
    s0.ready = true ∧ 8192 ≤ (List.replicate 8192 (0 : Pixel)).length ∧ (List.replicate 8191 (0 : Pixel)).length < 8192 := by
  rw [List.length_replicate, List.length_replicate]; decide

theorem witness_RenderedPixelsFollowTheGrid :
    8192 ≤ (List.replicate 8192 (0 : Pixel)).length ∧ s0.disp.on = false ∧ (after .displayOn s0).disp.on = true := by
  rw [List.length_replicate]; decide +kernel

theorem witness_DataByteRoundTripsToPixels :
    (after .displayOn s0).ready = true ∧ (after .displayOn s0).disp =
      { s0.disp with on := true, inv := false, segremap := false, scandir := false, round := false, fb := [], grid := s0.disp.grid } ∧
    s0.disp.grid = Vector.replicate 64 0 ∧ 8192 ≤ (List.replicate 8192 (0 : Pixel)).length := by
  rw [List.length_replicate]; decide +kernel

/-- An interval of no length, and one that takes `tot` to its last value. -/
theorem witness_ToggleAccumulatesTheInterval :
    s0.ready = true ∧ s0.audio.tlast.toNat ≤ (0 : Cycle).toNat ∧
    s0.audio.tot.toNat + ((0xFFFFFFFFFFFFFFFF : Cycle).toNat - s0.audio.tlast.toNat) < 2 ^ 64 ∧
    s0.audio.high.toNat + ((0xFFFFFFFFFFFFFFFF : Cycle).toNat - s0.audio.tlast.toNat) < 2 ^ 64 := by decide +kernel

theorem witness_UntimelyToggleCompletes :
    (withAudio false 1 0 0 []).ready = true ∧ (0 : Cycle).toNat < (withAudio false 1 0 0 []).audio.tlast.toNat := by decide +kernel

/-- A window high throughout, with one place left in the buffer. -/
theorem witness_SampleTickAppendsTheSample :
    (withAudio true 5 4 4 (List.replicate 2047 192)).ready = true ∧
    0 < (withAudio true 5 4 4 (List.replicate 2047 192)).audio.tot.toNat ∧
    (withAudio true 5 4 4 (List.replicate 2047 192)).audio.high.toNat ≤ (withAudio true 5 4 4 []).audio.tot.toNat ∧
    s0.cfg.audioBase.toNat + s0.cfg.audioAmp.toNat ≤ 255 ∧
    (withAudio true 5 4 4 (List.replicate 2047 192)).audio.abuf.length < 2048 := by
  refine ⟨rfl, ?_, ?_, ?_, ?_⟩
  · decide +kernel
  · decide +kernel
  · decide +kernel
  · show (List.replicate 2047 (192 : Byte)).length < 2048
    rw [List.length_replicate]; decide

theorem witness_EmptyWindowsAndFullBuffersAppendNothing :
    s0.ready = true ∧ s0.audio.tot = 0 ∧ (withAudio true 5 4 4 (List.replicate 2048 192)).audio.tot ≠ 0 ∧
    2048 ≤ (withAudio true 5 4 4 (List.replicate 2048 192)).audio.abuf.length := by
  refine ⟨rfl, rfl, ?_, ?_⟩
  · decide +kernel
  · show 2048 ≤ (List.replicate 2048 (192 : Byte)).length
    rw [List.length_replicate]

/-- The shortest target that is long enough, and the longest that is not. -/
theorem witness_ReadAudioDrainsInOrder :
    s0.ready = true ∧ 2048 ≤ (List.replicate 2048 (0 : Byte)).length ∧ (List.replicate 2047 (0 : Byte)).length < 2048 ∧
    s0.audio.abuf.length ≤ 2048 := by
  rw [List.length_replicate, List.length_replicate]; decide +kernel

theorem witness_HalfWindowGivesHalfAmplitude :
    s0.ready = true ∧ 0 < 250 ∧ s0.audio.tlast = 0 ∧ s0.audio.tot = 0 ∧ s0.audio.high = 0 ∧
    (250 : Cycle).toNat = (0 : Cycle).toNat + 250 ∧ (500 : Cycle).toNat = (0 : Cycle).toNat + 2 * 250 ∧
    s0.cfg.audioBase.toNat + s0.cfg.audioAmp.toNat ≤ 255 ∧ s0.audio.abuf.length < 2048 := by decide +kernel

theorem witness_AccessTable :
    exec .teardown s0 = .next (after .teardown s0) ∧ exec (.sclEdge true) (onBus .started 0) = .next (after (.sclEdge true) (onBus .started 0)) ∧
    committed s0 (.sclEdge true) = none ∧ (onBus .commandPhase 0).bus.bst = .commandPhase ∧ (onBus .dataPhase 0).bus.bst = .dataPhase ∧
    (commitByte 0xFF (onBus .commandPhase 0)).bus.bst ≠ .commandPhase ∧ s0.disp.round = false ∧
    (after (.setRefreshTiming true) s0).disp.round = true := by
  refine ⟨rfl, rfl, ?_, rfl, rfl, ?_, rfl, ?_⟩ <;> decide +kernel

theorem witness_AudioAndBusEventsCommute :
    (Instr.sampleTick = .sampleTick ∨ (∃ l now, Instr.sampleTick = .toggleEdge l now) ∨
      ∃ target, Instr.sampleTick = .readAudio target) ∧
    ((∃ l, Instr.sclEdge true = .sclEdge l) ∨ (∃ l, Instr.sclEdge true = .sdaEdge l) ∨ (∃ v, Instr.sclEdge true = .regWriteData v) ∨
      (∃ v, Instr.sclEdge true = .regWriteStatus v)) := ⟨.inl rfl, .inl ⟨true, rfl⟩⟩

theorem witness_AudioAndBusEventsCommute_read :
    (Instr.readAudio [] = .sampleTick ∨ (∃ l now, Instr.readAudio [] = .toggleEdge l now) ∨
      ∃ target, Instr.readAudio [] = .readAudio target) ∧
    ((∃ l, Instr.regWriteStatus 0xF0 = .sclEdge l) ∨ (∃ l, Instr.regWriteStatus 0xF0 = .sdaEdge l) ∨
      (∃ v, Instr.regWriteStatus 0xF0 = .regWriteData v) ∨ (∃ v, Instr.regWriteStatus 0xF0 = .regWriteStatus v)) :=
  ⟨.inr (.inr ⟨[], rfl⟩), .inr (.inr (.inr ⟨0xF0, rfl⟩))⟩

theorem witness_StepKeepsTheInvariant :
    (awaiting [.sampleTick]).Inv ∧ step (awaiting [.sampleTick]) = .next (stepped (awaiting [.sampleTick])) := by
  refine ⟨⟨test_cfg_accepts.1, ?_, Memory.wf_nil, ?_, ?_⟩, rfl⟩ <;> decide +kernel

/-- The next event comes at the very cycle of the last one. -/
theorem witness_StepKeepsTheAudioInvariant :
    (next (withAudio true 500 500 250 [128, 192]) [.toggleEdge false 500]).AudioInv ∧
    (next (withAudio true 500 500 250 [128, 192]) [.toggleEdge false 500]).timely ∧
    step (next (withAudio true 500 500 250 [128, 192]) [.toggleEdge false 500]) =
      .next (stepped (next (withAudio true 500 500 250 [128, 192]) [.toggleEdge false 500])) := by
  refine ⟨⟨?_, ?_, ?_, ?_⟩, ?_, rfl⟩
  · decide +kernel
  · decide +kernel
  · decide +kernel
  · decide +kernel
  · intro level now rest h
    obtain ⟨⟨-, rfl⟩, -⟩ : (false = level ∧ (500 : Cycle) = now) ∧ [] = rest := by
      simpa [next, withAudio] using h
    decide +kernel

end Sys2Proof.Tests
end

/-! SUPPORT. The statements of `00_scope.md`: a step runs the next event, every step completes, and a pseudo-instruction is the run of
its expansion. -/

namespace Sys2Proof.Machine

/-! ### What no operation takes away -/

/-- What the block keeps from `s` to `t` whatever happens between them: the parameters (R4, R34), and every result already given back
(R213). -/
structure KeepsGiven (s t : State) : Prop where
  cfg : t.cfg = s.cfg
  results : s.results <+: t.results

theorem KeepsGiven.of_eq {s t : State} (hcfg : t.cfg = s.cfg) (hresults : t.results = s.results) : KeepsGiven s t :=
  ⟨hcfg, hresults ▸ List.prefix_rfl⟩

theorem KeepsGiven.refl (s : State) : KeepsGiven s s := .of_eq rfl rfl

/-- A result handed back is appended to those already given. -/
theorem KeepsGiven.addResult {s t : State} (h : KeepsGiven s t) (r : Result) : KeepsGiven s (t.addResult r) :=
  ⟨h.cfg, h.results.trans (List.prefix_append ..)⟩

theorem setDisp_keepsGiven (s : State) (d : Display) : KeepsGiven s (s.setDisp d) := .of_eq rfl rfl

theorem setAudio_keepsGiven (s : State) (a : Audio) : KeepsGiven s (s.setAudio a) := .of_eq rfl rfl

theorem preconditionViolation_keepsGiven (falsy : Option Result) (s : State) :
    KeepsGiven s (preconditionViolation falsy s) := by
  cases falsy with
  | none => exact .refl s
  | some r => exact (KeepsGiven.refl s).addResult r

theorem gate_keepsGiven {f : State → State} {s : State} (hf : KeepsGiven s (f s)) (falsy : Option Result) :
    KeepsGiven s (gate falsy f s) := by
  cases hr : s.ready
  · rw [gate_of_not_ready hr]; exact preconditionViolation_keepsGiven falsy s
  · rw [gate_of_ready hr]; exact hf

/-! ### The bus events -/

theorem clockRise_keepsGiven (s : State) : KeepsGiven s (clockRise s) := by
  unfold clockRise
  split
  · exact .refl s
  · split
    · exact .of_eq rfl rfl
    · exact .of_eq (commitByte_cfg ..) (commitByte_results ..)

theorem clockEdge_keepsGiven (l : Bool) (s : State) : KeepsGiven s (clockEdge l s) := by
  unfold clockEdge
  split
  · obtain ⟨hcfg, hresults⟩ := clockRise_keepsGiven (s.setBus (s.bus.setScl l))
    exact ⟨hcfg, hresults⟩
  · exact .of_eq rfl rfl

theorem dataEdge_keepsGiven (l : Bool) (s : State) : KeepsGiven s (dataEdge l s) := by
  unfold dataEdge
  split
  · exact .of_eq rfl rfl
  · split <;> exact .of_eq rfl rfl

theorem writeStatus_keepsGiven (v : Byte) (s : State) : KeepsGiven s (writeStatus v s) := by
  unfold writeStatus
  split
  · exact .of_eq (commitByte_cfg ..) (commitByte_results ..)
  · exact .refl s

/-! ### The calls with a result -/

theorem refreshTiming_keepsGiven (roundMode : Bool) (s : State) : KeepsGiven s (refreshTiming roundMode s) :=
  (setDisp_keepsGiven s _).addResult _

theorem frameTick_keepsGiven (target : List Pixel) (s : State) : KeepsGiven s (frameTick target s) := by
  unfold frameTick
  split
  · exact preconditionViolation_keepsGiven _ s
  · exact (setDisp_keepsGiven s _).addResult _

theorem readAll_keepsGiven (target : List Byte) (s : State) : KeepsGiven s (readAll target s) := by
  unfold readAll
  split
  · exact preconditionViolation_keepsGiven _ s
  · exact (setAudio_keepsGiven s _).addResult _

/-! ### Every event -/

/-- No event writes the parameters or takes back a result. -/
theorem deliver_keepsGiven (s : State) (e : Event) : KeepsGiven s (deliver s e) := by
  cases e with
  | setup => exact .of_eq rfl rfl
  | teardown => exact .of_eq rfl rfl
  | sclEdge l => exact gate_keepsGiven (clockEdge_keepsGiven l s) none
  | sdaEdge l => exact gate_keepsGiven (dataEdge_keepsGiven l s) none
  | regWrite reg v =>
    cases reg with
    | data => exact gate_keepsGiven (.of_eq rfl rfl) none
    | status => exact gate_keepsGiven (writeStatus_keepsGiven v s) none
    | other n => exact .refl s
  | setRefreshTiming r => exact gate_keepsGiven (refreshTiming_keepsGiven r s) _
  | frameTick target => exact gate_keepsGiven (frameTick_keepsGiven target s) _
  | toggleEdge l now => exact gate_keepsGiven (.of_eq rfl rfl) none
  | sampleTick => exact gate_keepsGiven (.of_eq rfl rfl) none
  | readAudio target => exact gate_keepsGiven (readAll_keepsGiven target s) _

/-- An event leaves the events behind it waiting: `deliver_setInput` at the state's own input. -/
@[simp] theorem deliver_input (s : State) (e : Event) : (deliver s e).input = s.input :=
  congrArg (·.input) (deliver_setInput s e s.input : deliver s e = _)

/-! ### Scripts -/

/-- Executing a pseudo-instruction is delivering the events it is written as (R76). -/
theorem exec_of_encode_script {s : State} {i : Instr} {es : List Event} (h : encode s.cfg i = .script es) :
    exec i s = .next (deliverAll es s) := by
  cases i with
  | start | restart | stop | bit | ack | byte | txn | cmds | dataTxn | fast => cases h; rfl
  | _ => cases h

end Sys2Proof.Machine

/-! ### The statements -/

namespace Sys2Proof.Proofs

open Sys2Proof.Machine

/-- Settles O5: `step` by its cases, the list of events and what the decoder gives for its head. -/
theorem stepRunsTheNextEvent : Obligations.StepRunsTheNextEvent := by
  intro s e rest
  refine ⟨fun hin => ⟨fun i hi => ?_, fun r hr => ?_⟩, step_nil⟩
  · simp only [step, hin, hi]; rfl
  · simp only [step, hin, hr]; rfl

/-- Settles O8: a step is the delivery of its event on the input behind it, which the delivery leaves as it is. -/
theorem everyStepCompletes : Obligations.EveryStepCompletes := by
  intro s
  cases hin : s.input with
  | nil => exact ⟨s, step_nil hin, hin, rfl, List.prefix_rfl⟩
  | cons e rest =>
    have hk := deliver_keepsGiven (s.setInput rest) e
    exact ⟨deliver (s.setInput rest) e, step_cons hin, deliver_input _ e, hk.cfg, hk.results⟩

/-- Settles O26: both sides deliver the expansion, the one with only `rest` in the input, the other event by event; the effect of a
delivery does not depend on the events that wait. -/
theorem pseudoInstructionsRunTheirExpansion : Obligations.PseudoInstructionsRunTheirExpansion := by
  intro s i es rest hi hin
  refine ⟨(deliverAll es s).setInput rest, ?_, run_deliverAll es rest hin⟩
  rw [← deliverAll_setInput]
  exact exec_of_encode_script (s := s.setInput rest) hi

end Sys2Proof.Proofs

/-! SUPPORT. The statements of `10_state.md`: what a step, the gate and each event can do to each component of the state, and from
that the invariants, the access table, and what no step can tell apart. -/

namespace Sys2Proof.Machine

/-! ### A step is the delivery of its event -/

theorem eq_of_step_cons {s t : State} {e : Event} {rest : List Event} (hin : s.input = e :: rest) (h : step s = .next t) :
    t = (deliver s e).setInput rest := by
  rw [step_cons hin, deliver_setInput] at h
  cases h; rfl

/-- A step does nothing, with no event waiting, or delivers the first event. -/
theorem step_next_cases {s t : State} (h : step s = .next t) :
    t = s ∨ ∃ e rest, s.input = e :: rest ∧ t = (deliver s e).setInput rest := by
  cases hin : s.input with
  | nil => rw [step_nil hin] at h; cases h; exact .inl rfl
  | cons e rest => exact .inr ⟨e, rest, rfl, eq_of_step_cons hin h⟩

/-! ### The gate and a violated precondition -/

@[simp] theorem preconditionViolation_bus (falsy : Option Result) (s : State) :
    (preconditionViolation falsy s).bus = s.bus := by cases falsy <;> rfl
@[simp] theorem preconditionViolation_audio (falsy : Option Result) (s : State) :
    (preconditionViolation falsy s).audio = s.audio := by cases falsy <;> rfl

/-- A gated event violates its precondition or does what its own rule says. -/
theorem gate_cases (falsy : Option Result) (f : State → State) (s : State) :
    gate falsy f s = preconditionViolation falsy s ∨ gate falsy f s = f s := by
  cases hr : s.ready
  · exact .inl (gate_of_not_ready hr falsy f)
  · exact .inr (gate_of_ready hr falsy f)

/-- `gate_cases` for the next state of a gated row. -/
theorem eq_of_gated {falsy : Option Result} {f : State → State} {s t : State}
    (h : (.next (gate falsy f s) : Answer) = .next t) : t = preconditionViolation falsy s ∨ t = f s := by
  cases h
  exact gate_cases falsy f s

/-! ### The data edge by its cases (R84) -/

theorem dataEdge_of_start {l : Bool} {s : State} (h : s.bus.scl = true ∧ s.bus.sda = true ∧ l = false) :
    dataEdge l s = startCondition (s.setBus (s.bus.setSda l)) := if_pos h

theorem dataEdge_of_stop {l : Bool} {s : State} (hnot : ¬ (s.bus.scl = true ∧ s.bus.sda = true ∧ l = false))
    (h : s.bus.scl = true ∧ s.bus.sda = false ∧ l = true) :
    dataEdge l s = stopCondition (s.setBus (s.bus.setSda l)) := (if_neg hnot).trans (if_pos h)

theorem dataEdge_of_neither {l : Bool} {s : State} (hnot : ¬ (s.bus.scl = true ∧ s.bus.sda = true ∧ l = false))
    (hnot' : ¬ (s.bus.scl = true ∧ s.bus.sda = false ∧ l = true)) :
    dataEdge l s = s.setBus (s.bus.setSda l) := (if_neg hnot).trans (if_neg hnot')

/-! ### AUDIO beside BUS and DISPLAY -/

/-- The two states agree in all that a bus event reads. -/
structure SameBusSide (s t : State) : Prop where
  cfg : t.cfg = s.cfg
  ready : t.ready = s.ready
  bus : t.bus = s.bus
  disp : t.disp = s.disp

/-- The two states agree in all that an audio event reads. -/
structure SameAudioSide (s t : State) : Prop where
  cfg : t.cfg = s.cfg
  ready : t.ready = s.ready
  results : t.results = s.results
  fresh : t.fresh = s.fresh
  audio : t.audio = s.audio

/-- The state with the BUS and DISPLAY sub-blocks of another. -/
def State.takeBusSide (s u : State) : State := { s with bus := u.bus, disp := u.disp }

/-- The state with the AUDIO sub-block of another, and what an audio event writes of the model's own fields. -/
def State.takeAudioSide (s u : State) : State := { s with results := u.results, fresh := u.fresh, audio := u.audio }

theorem SameBusSide.eq_take {s t : State} (h : SameBusSide s t) : t = t.takeBusSide s := by
  obtain ⟨-, -, hbus, hdisp⟩ := h
  rw [State.takeBusSide, ← hbus, ← hdisp]

theorem SameAudioSide.eq_take {s t : State} (h : SameAudioSide s t) : t = t.takeAudioSide s := by
  obtain ⟨-, -, hresults, hfresh, haudio⟩ := h
  rw [State.takeAudioSide, ← hresults, ← hfresh, ← haudio]

/-- `f` reads and writes the bus side only. -/
def ActsOnBusSide (f : State → State) : Prop := ∀ ⦃s t⦄, SameBusSide s t → f t = t.takeBusSide (f s)

/-- `f` reads and writes the audio side only. -/
def ActsOnAudioSide (f : State → State) : Prop := ∀ ⦃s t⦄, SameAudioSide s t → f t = t.takeAudioSide (f s)

theorem ActsOnBusSide.audio {f : State → State} (hf : ActsOnBusSide f) (s : State) : (f s).audio = s.audio :=
  congrArg (·.audio) (hf (s := s) ⟨rfl, rfl, rfl, rfl⟩)

theorem ActsOnAudioSide.bus {f : State → State} (hf : ActsOnAudioSide f) (s : State) : (f s).bus = s.bus :=
  congrArg (·.bus) (hf (s := s) ⟨rfl, rfl, rfl, rfl, rfl⟩)

/-- Two operations on the two sides commute. -/
theorem ActsOnAudioSide.commute {f g : State → State} (hf : ActsOnAudioSide f) (hg : ActsOnBusSide g) (s : State) :
    g (f s) = f (g s) := by
  have hfs : f s = s.takeAudioSide (f s) := hf ⟨rfl, rfl, rfl, rfl, rfl⟩
  have hgs : g s = s.takeBusSide (g s) := hg ⟨rfl, rfl, rfl, rfl⟩
  have hgf : g (f s) = (f s).takeBusSide (g s) := hg (by rw [hfs]; exact ⟨rfl, rfl, rfl, rfl⟩)
  have hfg : f (g s) = (g s).takeAudioSide (f s) := hf (by rw [hgs]; exact ⟨rfl, rfl, rfl, rfl, rfl⟩)
  rw [hgf, hfg]
  generalize f s = u at hfs
  generalize g s = v at hgs
  rw [hfs, hgs]
  rfl

theorem ActsOnBusSide.gate {f : State → State} (hf : ActsOnBusSide f) : ActsOnBusSide (gate none f) := by
  intro s t h
  cases hr : s.ready
  · rw [gate_of_not_ready hr, gate_of_not_ready (h.ready.trans hr)]; exact h.eq_take
  · rw [gate_of_ready hr, gate_of_ready (h.ready.trans hr)]; exact hf h

theorem ActsOnAudioSide.gate {f : State → State} (hf : ActsOnAudioSide f) (falsy : Option Result) :
    ActsOnAudioSide (gate falsy f) := by
  intro s t h
  cases hr : s.ready
  · rw [gate_of_not_ready hr, gate_of_not_ready (h.ready.trans hr)]
    cases falsy with
    | none => exact h.eq_take
    | some r =>
      obtain ⟨-, -, hresults, hfresh, haudio⟩ := h
      simp only [preconditionViolation_some, State.addResult, State.setResults, State.takeAudioSide, ← hresults, ← hfresh,
        ← haudio]
  · rw [gate_of_ready hr, gate_of_ready (h.ready.trans hr)]; exact hf h

theorem commitByte_actsOnBusSide (b : Byte) : ActsOnBusSide (commitByte b) := by
  rintro s t ⟨hcfg, -, hbus, hdisp⟩
  rw [commitByte_of_same b hcfg (by rw [hbus]) hdisp, State.takeBusSide]
  conv_rhs => rw [commitByte_frame b s]
  rw [hbus]

theorem clockRise_actsOnBusSide : ActsOnBusSide clockRise := by
  intro s t h
  unfold clockRise
  rw [h.bus]
  split
  · exact h.eq_take
  · split
    · simp only [sampleBit, h.bus, h.disp, State.setBus, State.takeBusSide]
    · unfold ackSlot
      rw [h.bus]
      exact commitByte_actsOnBusSide s.bus.acc (s := s.setBus (s.bus.setCnt 0)) (t := t.setBus (s.bus.setCnt 0))
        ⟨h.cfg, h.ready, rfl, h.disp⟩

theorem clockEdge_actsOnBusSide (l : Bool) : ActsOnBusSide (clockEdge l) := by
  intro s t h
  have hscl : SameBusSide (s.setBus (s.bus.setScl l)) (t.setBus (s.bus.setScl l)) := ⟨h.cfg, h.ready, rfl, h.disp⟩
  unfold clockEdge
  rw [h.bus]
  split
  · exact clockRise_actsOnBusSide hscl
  · exact hscl.eq_take

theorem dataEdge_actsOnBusSide (l : Bool) : ActsOnBusSide (dataEdge l) := by
  intro s t h
  unfold dataEdge
  rw [h.bus]
  split
  · simp only [startCondition, State.setBus, State.takeBusSide, h.disp]
  · split <;> simp only [stopCondition, State.setBus, State.takeBusSide, h.disp]

theorem latchData_actsOnBusSide (v : Byte) : ActsOnBusSide (latchData v) := by
  intro s t h
  simp only [latchData, h.bus, h.disp, State.setBus, State.takeBusSide]

theorem writeStatus_actsOnBusSide (v : Byte) : ActsOnBusSide (writeStatus v) := by
  intro s t h
  unfold writeStatus
  rw [h.cfg, h.bus]
  split
  · exact commitByte_actsOnBusSide s.bus.dr (s := s.setBus (s.bus.setCnt 0)) (t := t.setBus (s.bus.setCnt 0))
      ⟨h.cfg, h.ready, rfl, h.disp⟩
  · exact h.eq_take

theorem toggle_actsOnAudioSide (l : Bool) (now : Cycle) : ActsOnAudioSide (toggle l now) := by
  intro s t h
  simp only [toggle, h.audio, h.fresh, h.results, State.setAudio, State.setFresh, State.takeAudioSide]

theorem tick_actsOnAudioSide : ActsOnAudioSide tick := by
  intro s t h
  simp only [tick, h.audio, h.fresh, h.results, h.cfg, State.setAudio, State.setFresh, State.takeAudioSide]

theorem readAll_actsOnAudioSide (target : List Byte) : ActsOnAudioSide (readAll target) := by
  intro s t h
  unfold readAll
  split
  · simp only [preconditionViolation_some, State.addResult, State.setResults, State.takeAudioSide, h.results, h.fresh, h.audio]
  · simp only [State.addResult, State.setAudio, State.setResults, State.takeAudioSide, h.results, h.fresh, h.audio]

/-! ### What the events write -/

theorem writeStatus_frame (v : Byte) (s : State) :
    ∃ disp cnt bst, writeStatus v s = { s with disp := disp, bus := { s.bus with cnt := cnt, bst := bst } } := by
  unfold writeStatus
  split
  · exact ⟨_, _, _, commitByte_frame ..⟩
  · exact ⟨_, _, _, rfl⟩

theorem dataEdge_frame (l : Bool) (s : State) :
    ∃ sda bst cnt, dataEdge l s = { s with bus := { s.bus with sda := sda, bst := bst, cnt := cnt } } := by
  unfold dataEdge
  split
  · exact ⟨_, _, _, rfl⟩
  · split <;> exact ⟨_, _, _, rfl⟩

theorem frameFlush_of_round {d : Display} (h : d.round = true) : frameFlush d = d := by simp [frameFlush, h]

theorem frameFlush_frame (d : Display) : ∃ grid, frameFlush d = { d with grid := grid } := by
  unfold frameFlush
  split
  · exact ⟨_, rfl⟩
  · exact ⟨_, flush_eq d⟩

theorem frameTick_frame (target : List Pixel) (s : State) :
    ∃ results grid, frameTick target s = { s with results := results, disp := { s.disp with grid := grid } } ∧
      (s.disp.round = true → grid = s.disp.grid) := by
  unfold frameTick
  split
  · exact ⟨_, _, rfl, fun _ => rfl⟩
  · obtain ⟨grid, hgrid⟩ := frameFlush_frame s.disp
    refine ⟨_, grid, by rw [hgrid]; rfl, fun hround => ?_⟩
    rw [frameFlush_of_round hround] at hgrid
    exact (congrArg Display.grid hgrid).symm

theorem readAll_frame (target : List Byte) (s : State) :
    ∃ results abuf, readAll target s = { s with results := results, audio := { s.audio with abuf := abuf } } := by
  unfold readAll
  split <;> exact ⟨_, _, rfl⟩

/-! ### What an event can do to the counter -/

theorem frameTick_bus (target : List Pixel) (s : State) : (frameTick target s).bus = s.bus := by
  obtain ⟨_, _, hframe, -⟩ := frameTick_frame target s
  rw [hframe]

/-- An event keeps the counter, clears it, or counts one more bit below eight. -/
def CntMoves (s t : State) : Prop :=
  t.bus.cnt = s.bus.cnt ∨ t.bus.cnt = 0 ∨ (s.bus.cnt < 8 ∧ t.bus.cnt = s.bus.cnt + 1)

theorem CntMoves.of_bus {s t : State} (h : t.bus = s.bus) : CntMoves s t := .inl (by rw [h])

theorem clockRise_cntMoves (s : State) : CntMoves s (clockRise s) := by
  unfold clockRise
  split
  · exact .of_bus rfl
  · split
    · rename_i hlt; exact .inr (.inr ⟨hlt, rfl⟩)
    · exact .inr (.inl (commitByte_cnt ..))

theorem clockEdge_cntMoves (l : Bool) (s : State) : CntMoves s (clockEdge l s) := by
  unfold clockEdge
  split
  · exact clockRise_cntMoves (s.setBus (s.bus.setScl l))
  · exact .inl rfl

theorem dataEdge_cntMoves (l : Bool) (s : State) : CntMoves s (dataEdge l s) := by
  unfold dataEdge
  split
  · exact .inr (.inl rfl)
  · split
    · exact .inr (.inl rfl)
    · exact .inl rfl

theorem writeStatus_cntMoves (v : Byte) (s : State) : CntMoves s (writeStatus v s) := by
  unfold writeStatus
  split
  · exact .inr (.inl (commitByte_cnt ..))
  · exact .of_bus rfl

theorem deliver_cntMoves (s : State) (e : Event) : CntMoves s (deliver s e) := by
  have hgate {falsy : Option Result} {f : State → State} (hf : CntMoves s (f s)) : CntMoves s (gate falsy f s) := by
    rcases gate_cases falsy f s with h | h <;> rw [h]
    · exact .of_bus (preconditionViolation_bus ..)
    · exact hf
  cases e with
  | setup => exact .inr (.inl rfl)
  | teardown => exact .of_bus rfl
  | sclEdge l => exact hgate (clockEdge_cntMoves l s)
  | sdaEdge l => exact hgate (dataEdge_cntMoves l s)
  | regWrite reg v =>
    cases reg with
    | data => exact hgate (.inl rfl)
    | status => exact hgate (writeStatus_cntMoves v s)
    | other n => exact .of_bus rfl
  | setRefreshTiming r => exact hgate (.of_bus rfl)
  | frameTick target => exact hgate (.of_bus (frameTick_bus ..))
  | toggleEdge l now => exact hgate (.of_bus rfl)
  | sampleTick => exact hgate (.of_bus rfl)
  | readAudio target => exact hgate (.of_bus ((readAll_actsOnAudioSide target).bus s))

/-! ### What an event can do to AUDIO -/

theorem frameTick_audio (target : List Pixel) (s : State) : (frameTick target s).audio = s.audio := by
  obtain ⟨_, _, hframe, -⟩ := frameTick_frame target s
  rw [hframe]

/-- A read drains the buffer or leaves AUDIO alone. -/
theorem readAll_audio (target : List Byte) (s : State) :
    (readAll target s).audio = s.audio.setAbuf [] ∨ (readAll target s).audio = s.audio := by
  unfold readAll
  split
  · exact .inr rfl
  · exact .inl rfl

theorem gate_audio_cases (falsy : Option Result) (f : State → State) (s : State) :
    (gate falsy f s).audio = s.audio ∨ (gate falsy f s).audio = (f s).audio := by
  rcases gate_cases falsy f s with h | h <;> rw [h]
  · exact .inl (preconditionViolation_audio ..)
  · exact .inr rfl

/-- AUDIO is written by `Setup` and by the three audio events only (R38). -/
theorem deliver_audio_cases (s : State) (e : Event) :
    (deliver s e).audio = s.audio ∨ (e = .setup ∧ (deliver s e).audio = Audio.reset) ∨
      (∃ l now, e = .toggleEdge l now ∧ (deliver s e).audio = (toggle l now s).audio) ∨
      (e = .sampleTick ∧ (deliver s e).audio = (tick s).audio) ∨
      (∃ target, e = .readAudio target ∧ (deliver s e).audio = s.audio.setAbuf []) := by
  have hkept {falsy : Option Result} {f : State → State} (hf : (f s).audio = s.audio) :
      (gate falsy f s).audio = s.audio := (gate_audio_cases falsy f s).elim id (·.trans hf)
  cases e with
  | setup => exact .inr (.inl ⟨rfl, rfl⟩)
  | teardown => exact .inl rfl
  | sclEdge l => exact .inl (hkept ((clockEdge_actsOnBusSide l).audio s))
  | sdaEdge l => exact .inl (hkept ((dataEdge_actsOnBusSide l).audio s))
  | regWrite reg v =>
    cases reg with
    | data => exact .inl (hkept rfl)
    | status => exact .inl (hkept ((writeStatus_actsOnBusSide v).audio s))
    | other n => exact .inl rfl
  | setRefreshTiming r => exact .inl (hkept rfl)
  | frameTick target => exact .inl (hkept (frameTick_audio ..))
  | toggleEdge l now => exact (gate_audio_cases ..).imp_right fun h => .inr (.inl ⟨l, now, rfl, h⟩)
  | sampleTick => exact (gate_audio_cases ..).imp_right fun h => .inr (.inr (.inl ⟨rfl, h⟩))
  | readAudio target =>
    rcases gate_audio_cases (some (.audio 0 target)) (readAll target) s with hgate | hgate
    · exact .inl hgate
    · rcases readAll_audio target s with hread | hread
      · exact .inr (.inr (.inr (.inr ⟨target, rfl, hgate.trans hread⟩)))
      · exact .inl (hgate.trans hread)

/-! ### What an event can do to DISPLAY -/

/-- The frame of an event that commits a byte: the counter is cleared, the clock line may rise, and DISPLAY and `bst` become what
the byte makes of them. -/
theorem deliver_frame_of_committed {s : State} {e : Event} {b : Byte} (h : committed s e = some b) :
    ∃ scl, deliver s e = { s with
      bus := { s.bus with scl := scl, cnt := 0, bst := (commitByte b s).bus.bst }, disp := (commitByte b s).disp } := by
  obtain ⟨scl, hd⟩ := deliver_of_committed h
  exact ⟨scl, hd.trans (commitByte_of_same b (s := s) rfl rfl rfl)⟩

theorem deliver_disp_of_committed {s : State} {e : Event} {b : Byte} (h : committed s e = some b) :
    (deliver s e).disp = (commitByte b s).disp := by
  obtain ⟨scl, hd⟩ := deliver_frame_of_committed h
  rw [hd]

theorem deliver_bst_of_committed {s : State} {e : Event} {b : Byte} (h : committed s e = some b) :
    (deliver s e).bus.bst = (commitByte b s).bus.bst := by
  obtain ⟨scl, hd⟩ := deliver_frame_of_committed h
  rw [hd]

/-- A committed byte stores one strip, in DataPhase only. -/
theorem commitByte_fb (b : Byte) (s : State) :
    (commitByte b s).disp.fb =
      if s.bus.bst = .dataPhase then Memory.write s.disp.fb (fbAddress s.disp.page s.disp.col) b else s.disp.fb := by
  by_cases hd : s.bus.bst = .dataPhase
  · rw [if_pos hd, commitByte_data hd, (dataByte_frame b s).1]
  · rw [if_neg hd]
    by_cases hc : s.bus.bst = .commandPhase
    · exact (commitByte_frame_command hc b).1
    · rw [commitByte_disp_elsewhere hc hd]

theorem commitByte_pend {s : State} (h : s.bus.bst ≠ .commandPhase) (b : Byte) :
    (commitByte b s).disp.pend = s.disp.pend := by
  by_cases hd : s.bus.bst = .dataPhase
  · rw [commitByte_data hd, (dataByte_frame b s).1]
  · rw [commitByte_disp_elsewhere h hd]

/-- A committed byte changes the grid only as a data byte at page wraparound under round-refresh (D16). -/
theorem commitByte_grid {s : State} {b : Byte} (h : (commitByte b s).disp.grid ≠ s.disp.grid) :
    s.bus.bst = .dataPhase ∧ s.disp.mode = .horizontal ∧ s.disp.page = 7 ∧ s.disp.col = 127 ∧ s.disp.round = true := by
  by_cases hd : s.bus.bst = .dataPhase
  · rw [commitByte_data hd] at h
    exact ⟨hd, (dataByte_frame b s).2 h⟩
  · by_cases hc : s.bus.bst = .commandPhase
    · obtain ⟨-, hgrid, -⟩ := commitByte_frame_command hc b
      exact absurd hgrid h
    · exact absurd (congrArg Display.grid (commitByte_disp_elsewhere hc hd b)) h

/-- Beside `Setup`, an event that commits no byte keeps the framebuffer and the pending parameter. -/
theorem deliver_fb_pend_of_not_committed {s : State} {e : Event} (he : e ≠ .setup) (h : committed s e = none) :
    (deliver s e).disp.fb = s.disp.fb ∧ (deliver s e).disp.pend = s.disp.pend := by
  rcases deliver_disp_of_not_committed h with rfl | ⟨r, -, -, hd⟩ | ⟨target, -, -, -, hd⟩ | hd
  · exact absurd rfl he
  · rw [hd]; exact ⟨rfl, rfl⟩
  · obtain ⟨_, hflush⟩ := frameFlush_frame s.disp
    rw [hd, hflush]; exact ⟨rfl, rfl⟩
  · rw [hd]; exact ⟨rfl, rfl⟩

/-! ### The invariant of R37 -/

theorem deliver_fb_wf {s : State} (h : Memory.wf s.disp.fb) (e : Event) : Memory.wf (deliver s e).disp.fb := by
  by_cases he : e = .setup
  · subst he; exact Memory.wf_nil
  cases hc : committed s e with
  | none => rw [(deliver_fb_pend_of_not_committed he hc).1]; exact h
  | some b =>
    rw [deliver_disp_of_committed hc, commitByte_fb]
    split
    · exact Memory.wf_write h (fbAddress_lt ..)
    · exact h

theorem length_bufferAfterTick_le {a : Audio} (h : a.abuf.length ≤ audioCap) (cfg : Config) (fresh : Nat) :
    (bufferAfterTick cfg a fresh).length ≤ audioCap := by
  unfold bufferAfterTick
  split
  · exact h
  · split
    · rename_i hlt; simpa using hlt
    · exact h

theorem deliver_length_abuf_le {s : State} (h : s.audio.abuf.length ≤ audioCap) (e : Event) :
    (deliver s e).audio.abuf.length ≤ audioCap := by
  rcases deliver_audio_cases s e with ha | ⟨-, ha⟩ | ⟨l, now, -, ha⟩ | ⟨-, ha⟩ | ⟨-, -, ha⟩ <;> rw [ha]
  · exact h
  · exact Nat.zero_le _
  · exact h
  · exact length_bufferAfterTick_le h ..
  · exact Nat.zero_le _

/-- Skip becomes pending only with extra commands: `Setup` has the premise on the parameters for it, a command byte an entry of
`ExtCmds`. -/
theorem deliver_skip_only_with_extCmds {s : State} (hcfg : s.cfg.wf) (h : s.disp.pend = .skip → s.cfg.extCmds ≠ [])
    (e : Event) (hskip : (deliver s e).disp.pend = .skip) : s.cfg.extCmds ≠ [] := by
  by_cases he : e = .setup
  · subst he
    obtain ⟨-, -, hreset⟩ := hcfg
    exact hreset hskip
  cases hc : committed s e with
  | none => exact h ((deliver_fb_pend_of_not_committed he hc).2.symm.trans hskip)
  | some b =>
    rw [deliver_disp_of_committed hc] at hskip
    by_cases hb : s.bus.bst = .commandPhase
    · obtain ⟨-, -, -, -, hpend⟩ := commitByte_frame_command hb b
      exact (hpend hskip).elim h id
    · exact h ((commitByte_pend hb b).symm.trans hskip)

theorem deliver_inv {s : State} (h : s.Inv) (e : Event) : (deliver s e).Inv := by
  obtain ⟨hcfg, hcnt, hfb, habuf, hskip⟩ := h
  have hkept := (deliver_keepsGiven s e).cfg
  refine ⟨hkept ▸ hcfg, ?_, deliver_fb_wf hfb e, deliver_length_abuf_le habuf e, ?_⟩
  · rcases deliver_cntMoves s e with h | h | ⟨hlt, h⟩ <;> omega
  · rw [hkept]; exact deliver_skip_only_with_extCmds hcfg hskip e

/-! ### The audio invariant of R37 -/

/-- A total within `tlast` grows by the elapsed cycles of a timely event without reaching 2^64 (R150). -/
theorem cycleSum_elapsed {a tlast now : Cycle} (ha : a.toNat ≤ tlast.toNat) (hnow : tlast.toNat ≤ now.toNat) :
    ∃ c, cycleSum a (elapsed tlast now) = some c ∧ c.toNat = a.toNat + (now.toNat - tlast.toNat) := by
  have hlt : a.toNat + (now.toNat - tlast.toNat) < 2 ^ 64 := by have := now.isLt; omega
  exact ⟨BitVec.ofNat 64 (a.toNat + (now.toNat - tlast.toNat)), by simp only [elapsed, hnow, cycleSum, hlt, if_true],
    by rw [BitVec.toNat_ofNat, Nat.mod_eq_of_lt hlt]⟩

theorem toNat_totAfter {a : Audio} {now : Cycle} (htot : a.tot.toNat ≤ a.tlast.toNat)
    (hnow : a.tlast.toNat ≤ now.toNat) (fresh : Nat) :
    (totAfter a now fresh).toNat = a.tot.toNat + (now.toNat - a.tlast.toNat) := by
  obtain ⟨c, hc, heq⟩ := cycleSum_elapsed htot hnow
  rw [totAfter, hc]; exact heq

theorem toNat_highAfter_le {a : Audio} {now : Cycle} (hhigh : a.high.toNat ≤ a.tlast.toNat)
    (hnow : a.tlast.toNat ≤ now.toNat) (fresh : Nat) :
    (highAfter a now fresh).toNat ≤ a.high.toNat + (now.toNat - a.tlast.toNat) := by
  obtain ⟨c, hc, heq⟩ := cycleSum_elapsed hhigh hnow
  unfold highAfter
  split
  · rw [hc]; exact heq.le
  · exact Nat.le_add_right ..

/-- With `high` within `tot` the formula of R154 stays between base and base plus amplitude. -/
theorem sampleValue_le {high tot : Cycle} (cfg : Config) (h : high.toNat ≤ tot.toNat) :
    sampleValue cfg high tot ≤ cfg.audioBase.toNat + cfg.audioAmp.toNat :=
  Nat.add_le_add_left (Nat.div_le_of_le_mul (Nat.mul_le_mul_right _ h)) _

theorem toNat_sampleByte {cfg : Config} {a : Audio} (hcfg : cfg.audioBase.toNat + cfg.audioAmp.toNat ≤ 255)
    (h : a.high.toNat ≤ a.tot.toNat) (fresh : Nat) :
    (sampleByte cfg a fresh).toNat = sampleValue cfg a.high a.tot := by
  have hlt : sampleValue cfg a.high a.tot < 256 := by have := sampleValue_le cfg h; omega
  rw [sampleByte, if_pos hlt, BitVec.toNat_ofNat, Nat.mod_eq_of_lt hlt]

theorem mem_bufferAfterTick {cfg : Config} {a : Audio} {fresh : Nat} {b : Byte} (h : b ∈ bufferAfterTick cfg a fresh) :
    b ∈ a.abuf ∨ b = sampleByte cfg a fresh := by
  unfold bufferAfterTick at h
  split at h
  · exact .inl h
  · split at h
    · simpa using h
    · exact .inl h

theorem deliver_audioInv {s : State} {e : Event} (h : s.AudioInv)
    (htimely : ∀ l now, e = .toggleEdge l now → s.audio.tlast.toNat ≤ now.toNat) : (deliver s e).AudioInv := by
  obtain ⟨hcfg, hhigh, htot, hsamples⟩ := h
  unfold State.AudioInv
  rw [(deliver_keepsGiven s e).cfg]
  refine ⟨hcfg, ?_⟩
  rcases deliver_audio_cases s e with ha | ⟨-, ha⟩ | ⟨l, now, he, ha⟩ | ⟨-, ha⟩ | ⟨-, -, ha⟩ <;> rw [ha]
  · exact ⟨hhigh, htot, hsamples⟩
  · exact ⟨Nat.le_refl _, Nat.le_refl _, by simp [Audio.reset]⟩
  · have hnow := htimely l now he
    have htotAfter := toNat_totAfter htot hnow s.fresh
    have hhighAfter := toNat_highAfter_le (hhigh.trans htot) hnow s.fresh
    simp only [toggle, State.setFresh_audio, State.setAudio_audio, Audio.setTog_high, Audio.setTlast_high, Audio.setHigh_high,
      Audio.setTog_tot, Audio.setTlast_tot, Audio.setHigh_tot, Audio.setTot_tot, Audio.setTog_tlast, Audio.setTlast_tlast]
    exact ⟨by omega, by omega, hsamples⟩
  · refine ⟨Nat.le_refl _, Nat.zero_le _, fun b hb => ?_⟩
    rcases mem_bufferAfterTick hb with hb | rfl
    · exact hsamples b hb
    · rw [toNat_sampleByte hcfg hhigh]
      exact ⟨Nat.le_add_right .., sampleValue_le s.cfg hhigh⟩
  · exact ⟨hhigh, htot, by simp⟩

/-! ### Stale accumulator bits -/

/-- `acc` agrees with the accumulator in the bits a later commit can show: while a transaction is active, the `cnt` bits already
sampled. -/
def AccAgrees (b : Bus) (acc : Byte) : Prop := b.bst ≠ .idle → ∀ k < b.cnt, b.acc.getLsbD k = acc.getLsbD k

/-- The state with another accumulator. -/
def State.withAcc (s : State) (acc : Byte) : State := s.setBus (s.bus.setAcc acc)

theorem sameButStaleBits_iff {s t : State} :
    sameButStaleBits s t ↔ ∃ acc, t = s.withAcc acc ∧ AccAgrees s.bus acc := by
  constructor
  · rintro ⟨ht, hagree⟩
    exact ⟨t.bus.acc, ht, hagree⟩
  · rintro ⟨acc, rfl, hagree⟩
    exact ⟨rfl, hagree⟩

theorem sameButStaleBits_withAcc {s : State} {acc : Byte} (h : AccAgrees s.bus acc) : sameButStaleBits s (s.withAcc acc) :=
  sameButStaleBits_iff.mpr ⟨acc, rfl, h⟩

theorem AccAgrees.of_cnt_zero {b : Bus} (h : b.cnt = 0) (acc : Byte) : AccAgrees b acc :=
  fun _ k hk => by omega

/-- With eight bits sampled in a transaction the whole accumulator is shown. -/
theorem AccAgrees.eq {b : Bus} {acc : Byte} (h : AccAgrees b acc) (hbst : b.bst ≠ .idle) (hcnt : 8 ≤ b.cnt) : acc = b.acc :=
  BitVec.eq_of_getLsbD_eq fun k hk => (h hbst k (by omega)).symm

/-- A sampled bit joins bits that agree. -/
theorem AccAgrees.sampled {b : Bus} {acc : Byte} (h : AccAgrees b acc) (hcnt : b.cnt < 8) (l : Bool) :
    AccAgrees ((b.setAcc (shiftIn b.acc l)).setCnt (b.cnt + 1)) (shiftIn acc l) := by
  intro hbst k hk
  simp only [Bus.setCnt_cnt] at hk
  cases k with
  | zero => exact (getLsbD_shiftIn_zero ..).trans (getLsbD_shiftIn_zero ..).symm
  | succ k =>
    simp only [Bus.setCnt_acc, Bus.setAcc_acc]
    rw [getLsbD_shiftIn_succ _ _ (by omega), getLsbD_shiftIn_succ _ _ (by omega)]
    exact h hbst k (by omega)

theorem commitByte_withAcc (b : Byte) (s : State) (acc : Byte) :
    commitByte b (s.withAcc acc) = (commitByte b s).withAcc acc := by
  rw [commitByte_of_same b (s := s) (t := s.withAcc acc) rfl rfl rfl]
  conv_rhs => rw [commitByte_frame]
  rfl

/-- A commit with the counter cleared leaves no sampled bit. -/
theorem commitByte_sameButStaleBits {s : State} (h : s.bus.cnt = 0) (b acc : Byte) :
    sameButStaleBits (commitByte b s) (commitByte b (s.withAcc acc)) := by
  rw [commitByte_withAcc]
  exact sameButStaleBits_withAcc (.of_cnt_zero ((commitByte_cnt ..).trans h) acc)

theorem clockRise_sameButStaleBits {s : State} {acc : Byte} (h : AccAgrees s.bus acc) :
    sameButStaleBits (clockRise s) (clockRise (s.withAcc acc)) := by
  by_cases hb : s.bus.bst = .idle
  · simp only [clockRise, State.withAcc, State.setBus_bus, Bus.setAcc_bst, hb, if_true]
    exact sameButStaleBits_withAcc h
  by_cases hc : s.bus.cnt < 8
  · simp only [clockRise, State.withAcc, State.setBus_bus, Bus.setAcc_bst, Bus.setAcc_cnt, hb, hc, if_true, if_false]
    exact sameButStaleBits_withAcc (s := sampleBit s) (h.sampled hc s.bus.sda)
  · rw [h.eq hb (Nat.not_lt.mp hc)]
    exact sameButStaleBits_withAcc fun _ _ _ => rfl

theorem clockEdge_sameButStaleBits {s : State} {acc : Byte} (h : AccAgrees s.bus acc) (l : Bool) :
    sameButStaleBits (clockEdge l s) (clockEdge l (s.withAcc acc)) := by
  by_cases hr : s.bus.scl = false ∧ l = true
  · simp only [clockEdge, State.withAcc, State.setBus_bus, Bus.setAcc_scl, hr, and_self, if_true]
    exact clockRise_sameButStaleBits (s := s.setBus (s.bus.setScl true)) h
  · simp only [clockEdge, State.withAcc, State.setBus_bus, Bus.setAcc_scl, hr, if_false]
    exact sameButStaleBits_withAcc (s := s.setBus (s.bus.setScl l)) h

theorem dataEdge_sameButStaleBits {s : State} {acc : Byte} (h : AccAgrees s.bus acc) (l : Bool) :
    sameButStaleBits (dataEdge l s) (dataEdge l (s.withAcc acc)) := by
  by_cases hstart : s.bus.scl = true ∧ s.bus.sda = true ∧ l = false
  · rw [dataEdge_of_start hstart, dataEdge_of_start (s := s.withAcc acc) hstart]
    exact sameButStaleBits_withAcc (s := startCondition (s.setBus (s.bus.setSda l))) (.of_cnt_zero rfl acc)
  by_cases hstop : s.bus.scl = true ∧ s.bus.sda = false ∧ l = true
  · rw [dataEdge_of_stop hstart hstop, dataEdge_of_stop (s := s.withAcc acc) hstart hstop]
    exact sameButStaleBits_withAcc (s := stopCondition (s.setBus (s.bus.setSda l))) (.of_cnt_zero rfl acc)
  · rw [dataEdge_of_neither hstart hstop, dataEdge_of_neither (s := s.withAcc acc) hstart hstop]
    exact sameButStaleBits_withAcc (s := s.setBus (s.bus.setSda l)) h

theorem writeStatus_sameButStaleBits {s : State} {acc : Byte} (h : AccAgrees s.bus acc) (v : Byte) :
    sameButStaleBits (writeStatus v s) (writeStatus v (s.withAcc acc)) := by
  by_cases hv : v = s.cfg.srSentinel
  · simp only [writeStatus, State.withAcc, State.setBus_cfg, hv, if_true]
    exact commitByte_sameButStaleBits (s := s.setBus (s.bus.setCnt 0)) rfl s.bus.dr acc
  · simp only [writeStatus, State.withAcc, State.setBus_cfg, hv, if_false]
    exact sameButStaleBits_withAcc h

theorem frameTick_sameButStaleBits {s : State} {acc : Byte} (h : AccAgrees s.bus acc) (target : List Pixel) :
    sameButStaleBits (frameTick target s) (frameTick target (s.withAcc acc)) := by
  unfold frameTick
  split
  · exact sameButStaleBits_withAcc (s := s.addResult _) h
  · exact sameButStaleBits_withAcc (s := (s.setDisp _).addResult _) h

theorem readAll_sameButStaleBits {s : State} {acc : Byte} (h : AccAgrees s.bus acc) (target : List Byte) :
    sameButStaleBits (readAll target s) (readAll target (s.withAcc acc)) := by
  unfold readAll
  split
  · exact sameButStaleBits_withAcc (s := s.addResult _) h
  · exact sameButStaleBits_withAcc (s := (s.setAudio _).addResult _) h

theorem gate_sameButStaleBits {s : State} {acc : Byte} (h : AccAgrees s.bus acc) {f : State → State}
    (hf : sameButStaleBits (f s) (f (s.withAcc acc))) (falsy : Option Result) :
    sameButStaleBits (gate falsy f s) (gate falsy f (s.withAcc acc)) := by
  cases hr : s.ready
  · rw [gate_of_not_ready hr, gate_of_not_ready (s := s.withAcc acc) hr]
    cases falsy with
    | none => exact sameButStaleBits_withAcc h
    | some r => exact sameButStaleBits_withAcc (s := s.addResult r) h
  · rw [gate_of_ready hr, gate_of_ready (s := s.withAcc acc) hr]; exact hf

/-- No event can tell stale bits of the accumulator apart. -/
theorem deliver_sameButStaleBits {s : State} {acc : Byte} (h : AccAgrees s.bus acc) (e : Event) :
    sameButStaleBits (deliver s e) (deliver (s.withAcc acc) e) := by
  cases e with
  | setup => exact sameButStaleBits_withAcc (s := setupBlock s) (acc := 0) (.of_cnt_zero rfl 0)
  | teardown => exact sameButStaleBits_withAcc (s := teardownBlock s) h
  | sclEdge l => exact gate_sameButStaleBits h (clockEdge_sameButStaleBits h l) _
  | sdaEdge l => exact gate_sameButStaleBits h (dataEdge_sameButStaleBits h l) _
  | regWrite reg v =>
    cases reg with
    | data => exact gate_sameButStaleBits h (sameButStaleBits_withAcc (s := latchData v s) h) _
    | status => exact gate_sameButStaleBits h (writeStatus_sameButStaleBits h v) _
    | other n => exact sameButStaleBits_withAcc h
  | setRefreshTiming r => exact gate_sameButStaleBits h (sameButStaleBits_withAcc (s := refreshTiming r s) h) _
  | frameTick target => exact gate_sameButStaleBits h (frameTick_sameButStaleBits h target) _
  | toggleEdge l now => exact gate_sameButStaleBits h (sameButStaleBits_withAcc (s := toggle l now s) h) _
  | sampleTick => exact gate_sameButStaleBits h (sameButStaleBits_withAcc (s := tick s) h) _
  | readAudio target => exact gate_sameButStaleBits h (readAll_sameButStaleBits h target) _

/-! ### The frame of each event -/

/-- Executing an event's row is delivering the event. -/
theorem eq_deliver_of_exec {e : Event} {i : Instr} {s t : State} (hi : decodeEvent e = .ok i) (h : exec i s = .next t) :
    t = deliver s e := by
  rw [exec_of_decodeEvent hi] at h
  cases h; rfl

/-- A clock edge that commits nothing writes `scl`, `acc` and `cnt` at most, ready or not. -/
theorem deliver_sclEdge_of_not_committed {s : State} {l : Bool} (h : committed s (.sclEdge l) = none) :
    ∃ scl acc cnt, deliver s (.sclEdge l) = { s with bus := { s.bus with scl := scl, acc := acc, cnt := cnt } } := by
  rcases s.ready.eq_false_or_eq_true with hr | hr
  · exact ⟨_, _, _, (gate_of_ready hr none _).trans (clockEdge_of_not_committed hr h)⟩
  · exact ⟨_, _, _, gate_of_not_ready hr none (clockEdge l)⟩

/-- A status write that commits nothing does nothing, ready or not. -/
theorem deliver_regWriteStatus_of_not_committed {s : State} {v : Byte} (h : committed s (.regWrite .status v) = none) :
    deliver s (.regWrite .status v) = s := by
  cases hr : s.ready
  · exact gate_of_not_ready hr none _
  · exact (gate_of_ready hr none _).trans (writeStatus_of_not_committed hr h)

/-! ### The frame of a committed byte by context -/

theorem Display.eq_of_kept {d d' : Display} (hfb : d'.fb = d.fb) (hgrid : d'.grid = d.grid) (hround : d'.round = d.round) :
    d' = { d with
      pend := d'.pend, mode := d'.mode, page := d'.page, col := d'.col, contrast := d'.contrast, on := d'.on, inv := d'.inv
      segremap := d'.segremap, scandir := d'.scandir } := by
  simp only [← hfb, ← hgrid, ← hround]

/-- The frame of a command byte: `bst`, and the registers of the DISPLAY sub-block but `round`. -/
theorem commitByte_command_frame {s : State} (h : s.bus.bst = .commandPhase) (b : Byte) :
    ∃ bst pend mode page col contrast on inv segremap scandir, commitByte b s = { s with
      bus := { s.bus with bst := bst }
      disp := { s.disp with
        pend := pend, mode := mode, page := page, col := col, contrast := contrast, on := on, inv := inv
        segremap := segremap, scandir := scandir } } := by
  obtain ⟨hfb, hgrid, hround, -, -⟩ := commitByte_frame_command h b
  have hdisp := Display.eq_of_kept hfb hgrid hround
  have hframe := commitByte_frame b s
  rw [hdisp] at hframe
  exact ⟨_, _, _, _, _, _, _, _, _, _, hframe⟩

/-- The frame of a data byte: the framebuffer, the cursor, the grid. -/
theorem commitByte_data_frame {s : State} (h : s.bus.bst = .dataPhase) (b : Byte) :
    ∃ fb page col grid, commitByte b s = { s with disp := { s.disp with fb := fb, page := page, col := col, grid := grid } } :=
  ⟨_, _, _, _, (commitByte_data h b).trans (dataByte_frame b s).1⟩

/-- The frame of a byte in any other context: the transaction state. -/
theorem commitByte_bst_frame {s : State} (hc : s.bus.bst ≠ .commandPhase) (hd : s.bus.bst ≠ .dataPhase) (b : Byte) :
    ∃ bst, commitByte b s = { s with bus := { s.bus with bst := bst } } := by
  have hframe := commitByte_frame b s
  rw [commitByte_disp_elsewhere hc hd] at hframe
  exact ⟨_, hframe⟩

/-! ### Reset -/

theorem gridBit_reset (r : ResetCfg) (y x : Nat) : gridBit (Display.reset r) y x = false := by
  have hrow : (Display.reset r).grid.toList.getD y 0 = 0 := by
    rw [Display.reset, Vector.toList_replicate, List.getD_eq_getElem?_getD, List.getElem?_getD_replicate_default_eq]
  rw [gridBit, hrow, BitVec.ofNat_eq_ofNat, BitVec.getLsbD_zero]

/-- The open parameters of the reset state are within the bound of R4, and the premises hold of an empty `ExtCmds`. -/
theorem standard_wf : Config.standard.wf := by
  have hbase := Config.openAudioBase.isLt
  have hamp := Nat.mod_lt Config.openAudioAmp (y := 256 - Config.openAudioBase.toNat) (by omega)
  refine ⟨?_, fun n _ _ => rfl, fun h => by cases h⟩
  simp only [Config.standard, BitVec.toNat_ofNat]
  omega

end Sys2Proof.Machine

/-! ### The statements -/

namespace Sys2Proof.Proofs

open Sys2Proof.Machine

/-- Settles O57: the invariant does not speak of the input, and every event keeps it. -/
theorem stepKeepsTheInvariant : Obligations.StepKeepsTheInvariant := by
  intro s t h hstep
  rcases step_next_cases hstep with rfl | ⟨e, rest, -, rfl⟩
  · exact h
  · exact deliver_inv h e

/-- Settles O58: a timely toggle adds the elapsed cycles to both totals or to `tot` alone, a tick clears them and stores a sample
within its range. -/
theorem stepKeepsTheAudioInvariant : Obligations.StepKeepsTheAudioInvariant := by
  intro s t h htimely hstep
  rcases step_next_cases hstep with rfl | ⟨e, rest, hin, rfl⟩
  · exact h
  · exact deliver_audioInv h fun l now he => htimely l now rest (he ▸ hin)

/-- Settles O39: outside CommandPhase no committed byte writes `pend`, and beside `Setup` no other event does. -/
theorem pendingParameterOutlivesTheTransaction : Obligations.PendingParameterOutlivesTheTransaction := by
  intro s t e rest hin hstep hne
  obtain rfl := eq_of_step_cons hin hstep
  by_cases he : e = .setup
  · exact .inl he
  cases hc : committed s e with
  | none => exact absurd (deliver_fb_pend_of_not_committed he hc).2 hne
  | some b =>
    refine .inr ⟨?_, rfl⟩
    by_contra hb
    exact hne ((congrArg Display.pend (deliver_disp_of_committed hc)).trans (commitByte_pend hb b))

/-- Settles O41: a read after the one write a data byte makes; every other event keeps the framebuffer. -/
theorem framebufferBytesChangeOnlyAtTheCursor : Obligations.FramebufferBytesChangeOnlyAtTheCursor := by
  intro s t e rest a hwf hin he hstep
  obtain rfl := eq_of_step_cons hin hstep
  simp only [State.setInput_disp]
  cases hc : committed s e with
  | none => exact ⟨nofun, fun _ => by rw [(deliver_fb_pend_of_not_committed he hc).1]⟩
  | some b =>
    rw [deliver_disp_of_committed hc, commitByte_fb]
    by_cases hd : s.bus.bst = .dataPhase
    · have hread := Memory.read_write hwf (fbAddress s.disp.page s.disp.col) a b
      rw [if_pos hd, hread]
      refine ⟨fun b' hb' _ ha => ?_, fun ha => if_neg ?_⟩
      · cases hb'; exact if_pos ha
      · rcases ha with h | h | h
        · cases h
        · exact absurd hd h
        · exact h
    · rw [if_neg hd]
      exact ⟨fun _ _ h => absurd h hd, fun _ => rfl⟩

/-- Settles O44: a committed byte or a frame tick writes the grid by a flush only, and no other event writes it. -/
theorem gridChangesOnlyAtAFlush : Obligations.GridChangesOnlyAtAFlush := by
  intro s t e rest hin hstep hne
  obtain rfl := eq_of_step_cons hin hstep
  simp only [State.setInput_disp] at hne
  cases hc : committed s e with
  | some b =>
    rw [deliver_disp_of_committed hc] at hne
    exact .inr (.inr ⟨rfl, commitByte_grid hne⟩)
  | none =>
    rcases deliver_disp_of_not_committed hc with he | ⟨r, -, -, hd⟩ | ⟨target, he, hr, ht, hd⟩ | hd
    · exact .inl he
    · exact absurd (congrArg Display.grid hd) hne
    · refine .inr (.inl ⟨target, he, hr, ht, ?_⟩)
      by_contra hround
      exact hne (by rw [hd, frameFlush_of_round (by simpa using hround)])
    · exact absurd (congrArg Display.grid hd) hne

/-- Settles O25: an event keeps the relation, since the bits it samples join bits that agree and a commit shows eight of them. -/
theorem staleAccumulatorBitsAreUnobservable : Obligations.StaleAccumulatorBitsAreUnobservable := by
  intro s t h
  obtain ⟨acc, rfl, hagree⟩ := sameButStaleBits_iff.mp h
  cases hin : s.input with
  | nil => exact ⟨s, s.withAcc acc, step_nil hin, step_nil hin, h⟩
  | cons e rest =>
    exact ⟨_, _, step_cons hin, step_cons (s := s.withAcc acc) hin,
      deliver_sameButStaleBits (s := s.setInput rest) hagree e⟩

/-- Settles O56: an audio event acts on one side of the state, a bus event on the other. -/
theorem audioAndBusEventsCommute : Obligations.AudioAndBusEventsCommute := by
  intro s a b ha hb
  obtain ⟨f, hexec, hf⟩ : ∃ f, (∀ u, exec a u = .next (f u)) ∧ ActsOnAudioSide f := by
    rcases ha with rfl | ⟨l, now, rfl⟩ | ⟨target, rfl⟩
    · exact ⟨_, fun _ => rfl, tick_actsOnAudioSide.gate _⟩
    · exact ⟨_, fun _ => rfl, (toggle_actsOnAudioSide l now).gate _⟩
    · exact ⟨_, fun _ => rfl, (readAll_actsOnAudioSide target).gate _⟩
  obtain ⟨g, hexec', hg⟩ : ∃ g, (∀ u, exec b u = .next (g u)) ∧ ActsOnBusSide g := by
    rcases hb with ⟨l, rfl⟩ | ⟨l, rfl⟩ | ⟨v, rfl⟩ | ⟨v, rfl⟩
    · exact ⟨_, fun _ => rfl, (clockEdge_actsOnBusSide l).gate⟩
    · exact ⟨_, fun _ => rfl, (dataEdge_actsOnBusSide l).gate⟩
    · exact ⟨_, fun _ => rfl, (latchData_actsOnBusSide v).gate⟩
    · exact ⟨_, fun _ => rfl, (writeStatus_actsOnBusSide v).gate⟩
  exact ⟨g (f s), by simp only [runInstrs, hexec, hexec'], by simp only [runInstrs, hexec, hexec', hf.commute hg s]⟩

/-- Settles O55: the frame of each event and of a committed byte in each context. -/
theorem accessTable : Obligations.AccessTable := by
  intro s t
  refine ⟨fun h => ?_, fun l h => ?_, fun l h => ?_, fun v h => ?_, fun v h => ?_, fun b hb h => ?_, fun b hb h => ?_,
    fun b hc hd h => ?_, fun r h => ?_, fun target h => ?_, fun l now h => ?_, fun h => ?_, fun target h => ?_⟩
  · -- Teardown
    cases h; rfl
  · -- SclEdge
    obtain rfl := eq_deliver_of_exec (e := .sclEdge l) rfl h
    refine ⟨?_, fun hc => ?_, fun b hc => ⟨deliver_disp_of_committed hc, deliver_bst_of_committed hc⟩⟩
    · cases hc : committed s (.sclEdge l) with
      | none => obtain ⟨_, _, _, hframe⟩ := deliver_sclEdge_of_not_committed hc; rw [hframe]
      | some b => obtain ⟨_, hframe⟩ := deliver_frame_of_committed hc; rw [hframe]
    · obtain ⟨_, _, _, hframe⟩ := deliver_sclEdge_of_not_committed hc
      rw [hframe]; exact ⟨rfl, rfl⟩
  · -- SdaEdge
    rcases eq_of_gated h with rfl | rfl
    · rfl
    · obtain ⟨_, _, _, hframe⟩ := dataEdge_frame l s; rw [hframe]
  · -- RegWrite to the data register
    rcases eq_of_gated h with rfl | rfl <;> rfl
  · -- RegWrite to the status register
    refine ⟨?_, fun hc => ?_, fun b hc => ?_⟩
    · rcases eq_of_gated h with rfl | rfl
      · rfl
      · obtain ⟨_, _, _, hframe⟩ := writeStatus_frame v s; rw [hframe]
    all_goals obtain rfl := eq_deliver_of_exec (e := .regWrite .status v) rfl h
    · exact deliver_regWriteStatus_of_not_committed hc
    · exact ⟨deliver_disp_of_committed hc, deliver_bst_of_committed hc⟩
  · -- a byte in CommandPhase
    subst h
    obtain ⟨-, -, -, hbst, -⟩ := commitByte_frame_command hb b
    refine ⟨?_, hbst.resolve_left⟩
    obtain ⟨_, _, _, _, _, _, _, _, _, _, hframe⟩ := commitByte_command_frame hb b
    rw [hframe]
  · -- a byte in DataPhase
    subst h
    refine ⟨?_, fun hround => ?_⟩
    · obtain ⟨_, _, _, _, hframe⟩ := commitByte_data_frame hb b; rw [hframe]
    · by_contra hne
      obtain ⟨-, -, -, -, hround'⟩ := commitByte_grid hne
      exact absurd (hround.symm.trans hround') Bool.false_ne_true
  · -- a byte in any other context
    subst h
    obtain ⟨_, hframe⟩ := commitByte_bst_frame hc hd b; rw [hframe]
  · -- SetRefreshTiming
    rcases eq_of_gated h with rfl | rfl <;> rfl
  · -- FrameTick
    rcases eq_of_gated h with rfl | rfl
    · exact ⟨rfl, fun _ => rfl⟩
    · obtain ⟨_, _, hframe, hgrid⟩ := frameTick_frame target s
      rw [hframe]; exact ⟨rfl, hgrid⟩
  · -- ToggleEdge
    rcases eq_of_gated h with rfl | rfl <;> rfl
  · -- SampleTick
    rcases eq_of_gated h with rfl | rfl <;> rfl
  · -- ReadAudio
    rcases eq_of_gated h with rfl | rfl
    · rfl
    · obtain ⟨_, _, hframe⟩ := readAll_frame target s; rw [hframe]

/-- Settles O9: an empty framebuffer reads 0x00 everywhere and a grid of zero rows has no bit set; the registers are read off. -/
theorem resetHoldsTheTableOfValues : Obligations.ResetHoldsTheTableOfValues := 
  ⟨rfl, rfl, rfl, rfl, rfl, rfl, rfl, rfl, rfl, rfl, rfl, rfl, fun _ _ => Memory.read_nil _,
    gridBit_reset ResetCfg.spec, rfl, rfl, rfl⟩

/-- Settles O10: `setupBlock` with the free value it draws. -/
theorem setupRecreatesEverything : Obligations.SetupRecreatesEverything :=
  fun s => ⟨Config.freeDr s.fresh, rfl⟩

/-- Settles O17: the gate is open. -/
theorem dataRegisterWriteLatches : Obligations.DataRegisterWriteLatches :=
  fun _ v hr => congrArg Host.Outcome.next (gate_of_ready hr none (latchData v))

/-- Settles O18: the gate is open and the test for the sentinel decides; an unwatched register decodes to no row. -/
theorem statusRegisterWriteCommits : Obligations.StatusRegisterWriteCommits := by
  intro s v hr
  have hexec : exec (.regWriteStatus v) s = .next (writeStatus v s) :=
    congrArg Host.Outcome.next (gate_of_ready hr none (writeStatus v))
  refine ⟨fun hv => ?_, fun hv => ?_, fun id rest hin => step_cons hin⟩
  · rw [hexec, writeStatus, if_pos hv]; rfl
  · rw [hexec, writeStatus, if_neg hv]

/-- Settles O59: beside the premises on the parameters, everything at reset is zero, empty or not Skip. -/
theorem resetMeetsTheInvariants : Obligations.ResetMeetsTheInvariants :=
  ⟨⟨standard_wf, Nat.zero_le _, reset_fb_wf, Nat.zero_le _, fun h => by cases h⟩,
    standard_wf.1, Nat.le_refl _, Nat.le_refl _, fun _ h => by cases h⟩

end Sys2Proof.Proofs

/-! SUPPORT. The statements of `20_memory.md`: a byte on the wire, the flush, the pixels, the data byte, the audio read. -/

namespace Sys2Proof.Machine

/-! ### A byte on the wire (R95) -/

/-- With the clock low a data edge is neither a start nor a stop: only the level is stored (R87). -/
theorem deliver_sdaEdge_of_low {s : State} (hr : s.ready = true) (hscl : s.bus.scl = false) (l : Bool) :
    deliver s (.sdaEdge l) = s.setBus (s.bus.setSda l) := by
  have hlow : ¬ s.bus.scl = true := by simp [hscl]
  exact (gate_of_ready hr none _).trans (dataEdge_of_neither (fun h => hlow h.1) (fun h => hlow h.1))

/-- Of any data edges while the clock is low the last level stays, and nothing else changes. -/
theorem deliverAll_sdaEdges_of_low (levels : List Bool) {s : State} (hr : s.ready = true) (hscl : s.bus.scl = false) :
    deliverAll (levels.map .sdaEdge) s = s.setBus (s.bus.setSda (levels.getLastD s.bus.sda)) := by
  induction levels generalizing s with
  | nil => rfl
  | cons l levels ih =>
    rw [List.map_cons, deliverAll_cons, deliver_sdaEdge_of_low hr hscl, List.getLastD_cons]
    exact ih hr hscl

/-- A clock pulse with fewer than eight bits in samples the data level (R82). -/
theorem deliverAll_clockPulse {s : State} (hr : s.ready = true) (hscl : s.bus.scl = false) (hbst : s.bus.bst ≠ .idle)
    (hcnt : s.bus.cnt < 8) :
    deliverAll [.sclEdge true, .sclEdge false] s =
      { s with bus := { s.bus with acc := shiftIn s.bus.acc s.bus.sda, cnt := s.bus.cnt + 1 } } := by
  have hrise : deliver s (.sclEdge true) = sampleBit (s.setBus (s.bus.setScl true)) := by
    simp [deliver, gate_of_ready hr, clockEdge, clockRise, hscl, hbst, hcnt]
  rw [deliverAll_cons, hrise, deliverAll_cons, deliverAll_nil]
  simp [deliver, gate, hr, clockEdge, sampleBit, State.setBus, Bus.setScl, Bus.setAcc, Bus.setCnt, hscl]

/-- The rising clock edge with eight bits in commits them (R83). -/
theorem deliver_ninthPulse {s : State} (hr : s.ready = true) (hscl : s.bus.scl = false) (hbst : s.bus.bst ≠ .idle)
    (hcnt : s.bus.cnt = 8) :
    deliver s (.sclEdge true) = commitByte s.bus.acc { s with bus := { s.bus with scl := true, cnt := 0 } } := by
  simp [deliver, gate_of_ready hr, clockEdge, clockRise, ackSlot, hscl, hbst, hcnt, State.setBus, Bus.setScl, Bus.setCnt]

/-- One bit on the wire: the last level before the pulse is the one sampled, whatever came before it. -/
theorem deliverAll_wireBit (levels : List Bool) (d : Bool) {s : State} (hr : s.ready = true) (hscl : s.bus.scl = false)
    (hbst : s.bus.bst ≠ .idle) (hcnt : s.bus.cnt < 8) :
    deliverAll (wireBit (levels ++ [d])) s =
      { s with bus := { s.bus with sda := d, acc := shiftIn s.bus.acc d, cnt := s.bus.cnt + 1 } } := by
  rw [wireBit, deliverAll_append, deliverAll_sdaEdges_of_low _ hr hscl, List.getLastD_concat]
  exact deliverAll_clockPulse (s := s.setBus (s.bus.setSda d)) hr hscl hbst hcnt

/-- Bits on the wire, up to eight in all, are shifted into the accumulator in order. -/
theorem deliverAll_wireBits (bits : List (List Bool × Bool)) {s : State} (hr : s.ready = true) (hscl : s.bus.scl = false)
    (hbst : s.bus.bst ≠ .idle) (hcnt : s.bus.cnt + bits.length ≤ 8) :
    ∃ sda, deliverAll (bits.flatMap fun p => wireBit (p.1 ++ [p.2])) s =
      { s with bus := { s.bus with
          sda := sda, acc := (bits.map Prod.snd).foldl shiftIn s.bus.acc, cnt := s.bus.cnt + bits.length } } := by
  induction bits generalizing s with
  | nil => exact ⟨s.bus.sda, rfl⟩
  | cons p bits ih =>
    rw [List.length_cons] at hcnt
    rw [List.flatMap_cons, deliverAll_append, deliverAll_wireBit p.1 p.2 hr hscl hbst (by omega)]
    obtain ⟨sda, hbits⟩ := ih (s := { s with bus := { s.bus with
      sda := p.2, acc := shiftIn s.bus.acc p.2, cnt := s.bus.cnt + 1 } }) hr hscl hbst (by show s.bus.cnt + 1 + _ ≤ 8; omega)
    rw [hbits]
    exact ⟨sda, by simp only [List.map_cons, List.foldl_cons, List.length_cons, Nat.add_assoc, Nat.add_comm 1]⟩

/-- The number that data levels spell, most significant first, after the bits of `n`. -/
def spelled (n : Nat) (levels : List Bool) : Nat := levels.foldl (fun n d => 2 * n + d.toNat) n

theorem foldl_shiftIn (levels : List Bool) (n : Nat) :
    levels.foldl shiftIn (BitVec.ofNat 8 n) = BitVec.ofNat 8 (spelled n levels) := by
  induction levels generalizing n with
  | nil => rfl
  | cons d levels ih =>
    have hshift : shiftIn (BitVec.ofNat 8 n) d = BitVec.ofNat 8 (2 * n + d.toNat) := by
      apply BitVec.eq_of_toNat_eq
      rw [toNat_shiftIn, BitVec.toNat_ofNat, BitVec.toNat_ofNat]
      omega
    rw [List.foldl_cons, hshift, ih]
    rfl

/-- What stood before the levels is moved up by one place for each of them. -/
theorem spelled_eq_add (levels : List Bool) (n : Nat) : spelled n levels = n * 2 ^ levels.length + spelled 0 levels := by
  induction levels generalizing n with
  | nil => simp [spelled]
  | cons d levels ih =>
    have hcons (m : Nat) : spelled m (d :: levels) = spelled (2 * m + d.toNat) levels := rfl
    rw [hcons, hcons, ih (2 * n + d.toNat), ih (2 * 0 + d.toNat), List.length_cons, Nat.pow_succ]
    ring

/-- Eight levels push every bit out that was in the accumulator before them. -/
theorem foldl_shiftIn_eight {levels : List Bool} (h : levels.length = 8) (acc : Byte) :
    levels.foldl shiftIn acc = BitVec.ofNat 8 (spelled 0 levels) := by
  have hfold := foldl_shiftIn levels acc.toNat
  rw [BitVec.ofNat_toNat, BitVec.setWidth_eq] at hfold
  rw [hfold, spelled_eq_add, h]
  apply BitVec.eq_of_toNat_eq
  rw [BitVec.toNat_ofNat, BitVec.toNat_ofNat, Nat.mul_add_mod_self_right]

/-- The ninth pulse after any data edges: the eight bits sampled are committed. -/
theorem deliverAll_ninthPulse (idle : List Bool) {s : State} (hr : s.ready = true) (hscl : s.bus.scl = false)
    (hbst : s.bus.bst ≠ .idle) (hcnt : s.bus.cnt = 8) :
    ∃ sda, deliverAll (idle.map .sdaEdge ++ [.sclEdge true]) s =
      commitByte s.bus.acc { s with bus := { s.bus with scl := true, sda := sda, cnt := 0 } } := by
  rw [deliverAll_append, deliverAll_sdaEdges_of_low idle hr hscl]
  exact ⟨_, deliver_ninthPulse (s := s.setBus (s.bus.setSda _)) hr hscl hbst hcnt⟩

/-- A whole byte on the wire, from a byte boundary with the clock low: the eight levels are committed at the ninth rise. -/
theorem deliverAll_wireByte {bits : List (List Bool × Bool)} (idle : List Bool) {s : State} (hr : s.ready = true)
    (hscl : s.bus.scl = false) (hbst : s.bus.bst ≠ .idle) (hcnt : s.bus.cnt = 0) (hbits : bits.length = 8) :
    ∃ sda, deliverAll (wireByte bits idle) s =
      commitByte (BitVec.ofNat 8 (spelled 0 (bits.map Prod.snd))) { s with bus := { s.bus with
        scl := true, sda := sda, cnt := 0, acc := BitVec.ofNat 8 (spelled 0 (bits.map Prod.snd)) } } := by
  obtain ⟨sda, hsampled⟩ := deliverAll_wireBits bits hr hscl hbst (by omega)
  rw [foldl_shiftIn_eight (by rw [List.length_map, hbits]), hcnt, hbits] at hsampled
  rw [wireByte, deliverAll_append, hsampled]
  exact deliverAll_ninthPulse idle hr hscl hbst rfl

/-! ### The flush (R132) -/

/-- Row `8 * p + k` of a flushed grid shows bit `k` of the strips of page `p` (R43, D15). -/
theorem gridBit_flush_strip (d : Display) {p c k : Nat} (hp : p < 8) (hc : c < 128) (hk : k < 8) :
    gridBit (flush d) (8 * p + k) c = (fbByte d p c).getLsbD k := by
  have hrow : (8 * p + k) / 8 = p := by omega
  have hbit : (8 * p + k) % 8 = k := by omega
  rw [gridBit_flush d (by omega) hc, hrow, hbit]
  rfl

/-- A flush reads the framebuffer, which it does not write. -/
theorem flush_flush (d : Display) : flush (flush d) = flush d := rfl

/-! ### The pixels (R135) -/

/-- The opaque gray of a contrast as a number: the same level in blue, green and red (R136). -/
theorem gray_eq_ofNat (c : Byte) : gray c = BitVec.ofNat 32 (0xFF000000 + (128 + c.toNat / 2) * 0x10101) := by
  revert c; decide +kernel

theorem renderPixel_eq (d : Display) (y x : Nat) :
    renderPixel d y x =
      if (gridBit d (sourceRow d.scandir y) (sourceCol d.segremap x) != d.inv) = true then
        BitVec.ofNat 32 (0xFF000000 + (128 + d.contrast.toNat / 2) * 0x10101)
      else transparent := by
  rw [renderPixel, gray_eq_ofNat]
  rfl

/-- With the display on, element `y * 128 + x` of the target is pixel (y, x) (R45). -/
theorem getElem?_render_pixel {d : Display} (hd : d.on = true) (target : List Pixel) {y x : Nat} (hy : y < 64) (hx : x < 128) :
    (render d target)[y * 128 + x]? = some (renderPixel d y x) := by
  have hlt : y * 128 + x < 8192 := by omega
  have hrow : (y * 128 + x) / 128 = y := by omega
  have hcol : (y * 128 + x) % 128 = x := by omega
  rw [render_on hd, List.getElem?_append_left (by simpa using hlt), List.getElem?_map, List.getElem?_range hlt, Option.map_some,
    hrow, hcol]

/-- No element beyond the 8192 pixels is written (R135). -/
theorem getElem?_render_beyond {d : Display} (hd : d.on = true) (target : List Pixel) {i : Nat} (hi : 8192 ≤ i) :
    (render d target)[i]? = target[i]? := by
  rw [render_on hd, List.getElem?_append_right (by simpa using hi), List.getElem?_drop, List.length_map, List.length_range,
    Nat.add_sub_cancel' hi]

/-! ### The data byte (R130) -/

/-- The cursor is at the place from which its advance flushes: the last strip in Horizontal mode under round-refresh (D16). -/
def Display.WrapsInRound (d : Display) : Prop := d.col = 127 ∧ d.mode = .horizontal ∧ d.page = 7 ∧ d.round = true

/-- The cursor's advance as one equation: the column wraps at 127, the page only with it and in Horizontal mode. -/
theorem advanceCursor_eq (d : Display) :
    advanceCursor d = { d with
      grid := (advanceCursor d).grid
      col := if d.col = 127 then 0 else d.col + 1
      page := if d.col = 127 ∧ d.mode = .horizontal then (if d.page = 7 then 0 else d.page + 1) else d.page } := by
  rcases advanceCursor_cases d with ⟨hcol, h⟩ | ⟨hcol, hmode, h⟩ | ⟨hcol, hmode, hpage, h⟩ | ⟨hcol, hmode, hpage, -, h⟩ |
    ⟨hcol, hmode, hpage, -, h⟩ <;> rw [h]
  · simp only [hcol, false_and, if_false]
  · simp only [hcol, hmode, reduceCtorEq, and_false, if_true, if_false]
  · simp only [hcol, hmode, hpage, and_self, if_true, if_false]
  · simp only [hcol, hmode, hpage, and_self, if_true]
  · rw [flush_eq]; simp only [hcol, hmode, hpage, and_self, if_true]

theorem advanceCursor_grid_of_wrap {d : Display} (h : d.WrapsInRound) : (advanceCursor d).grid = (flush d).grid := by
  obtain ⟨hcol, hmode, hpage, hround⟩ := h
  rcases advanceCursor_cases d with ⟨hne, -⟩ | ⟨-, hne, -⟩ | ⟨-, -, hne, -⟩ | ⟨-, -, -, hne, -⟩ | ⟨-, -, -, -, h⟩
  · exact absurd hcol hne
  · simp [hmode] at hne
  · exact absurd hpage hne
  · simp [hround] at hne
  · rw [h]; rfl

theorem advanceCursor_grid_of_not_wrap {d : Display} (hwrap : ¬ d.WrapsInRound) : (advanceCursor d).grid = d.grid := by
  rcases advanceCursor_cases d with ⟨-, h⟩ | ⟨-, -, h⟩ | ⟨-, -, -, h⟩ | ⟨-, -, -, -, h⟩ | ⟨hcol, hmode, hpage, hround, -⟩
  · rw [h]
  · rw [h]
  · rw [h]
  · rw [h]
  · exact absurd ⟨hcol, hmode, hpage, hround⟩ hwrap

/-! ### The audio read (R157) -/

theorem readAll_of_short {target : List Byte} (h : target.length < 2048) (s : State) :
    readAll target s = s.addResult (.audio 0 target) := if_pos h

theorem readAll_of_long {target : List Byte} (h : 2048 ≤ target.length) (s : State) :
    readAll target s = (s.setAudio (s.audio.setAbuf [])).addResult
      (.audio s.audio.abuf.length (s.audio.abuf ++ target.drop s.audio.abuf.length)) := if_neg (Nat.not_lt.mpr h)

theorem exec_readAudio_of_ready {s : State} (hr : s.ready = true) (target : List Byte) :
    exec (.readAudio target) s = .next (readAll target s) := congrArg Host.Outcome.next (gate_of_ready hr _ _)

end Sys2Proof.Machine

/-! ### The statements -/

namespace Sys2Proof.Proofs

open Sys2Proof.Machine

/-- Settles O23: the run delivers the wire events, and eight sampled levels replace the whole accumulator. -/
theorem wireReconstructsEveryByte : Obligations.WireReconstructsEveryByte := by
  intro s bits idle rest hr hbst hcnt hscl hbits hin
  obtain ⟨sda, hbyte⟩ := deliverAll_wireByte idle hr hscl hbst hcnt hbits
  refine ⟨sda, ?_⟩
  rw [run_deliverAll _ rest hin, hbyte, ← commitByte_setInput]
  rfl

/-- Settles O43: row `8 * p + k` is bit `k` of page `p`, and the flush reads only what it does not write. -/
theorem flushCopiesTheFramebuffer : Obligations.FlushCopiesTheFramebuffer :=
  fun d => ⟨fun _ hp _ hc _ hk => gridBit_flush_strip d hp hc hk, flush_eq d, flush_flush d⟩

/-- Settles O47: the target is the 8192 pixels followed by what stood beyond them. -/
theorem renderedPixelsFollowTheGrid : Obligations.RenderedPixelsFollowTheGrid := by
  intro d target hlen
  refine ⟨fun hoff => render_off hoff target, fun hon => ⟨length_render d hlen, fun y hy x hx => ?_, fun i hi => ?_⟩⟩
  · rw [getElem?_render_pixel hon target hy hx, renderPixel_eq]
    rfl
  · exact getElem?_render_beyond hon target hi

/-- Settles O40: the store by the read-after-write law, the cursor by its advance, the grid by the flush that goes with it. -/
theorem dataByteStoresAndAdvances : Obligations.DataByteStoresAndAdvances := by
  intro s b hwf
  have hread := Memory.read_write hwf (fbAddress s.disp.page s.disp.col)
  refine ⟨Memory.write s.disp.fb (fbAddress s.disp.page s.disp.col) b, (advanceCursor (storeStrip b s.disp)).grid, ?_,
    (hread _ b).trans (if_pos rfl), fun a ha => (hread a b).trans (if_neg ha), ?_⟩
  · exact congrArg (fun d => Host.Outcome.next (s.setDisp d)) (advanceCursor_eq (storeStrip b s.disp))
  · split
    · rename_i hwrap
      rw [advanceCursor_grid_of_wrap (d := storeStrip b s.disp) hwrap]
      exact fun p hp c hc k hk => gridBit_flush_strip (storeStrip b s.disp) hp hc hk
    · rename_i hwrap
      exact advanceCursor_grid_of_not_wrap (d := storeStrip b s.disp) hwrap

/-- Settles O53: a long target is the samples followed by its own rest, a short one violates the precondition. -/
theorem readAudioDrainsInOrder : Obligations.ReadAudioDrainsInOrder := by
  intro s target hr
  rw [exec_readAudio_of_ready hr]
  refine ⟨fun hlong hcap => ⟨s.audio.abuf ++ target.drop s.audio.abuf.length, ?_, fun i hi => ?_, fun i hi => ?_, ?_⟩,
    fun hshort => by rw [readAll_of_short hshort]; rfl⟩
  · rw [List.length_append, List.length_drop]; omega
  · exact List.getElem?_append_left hi
  · rw [List.getElem?_append_right hi, List.getElem?_drop, Nat.add_sub_cancel' hi]
  · rw [readAll_of_long hlong]; rfl

end Sys2Proof.Proofs

/-! SUPPORT. The statements of `30_encoding.md`: the command table against its numbers, the phrases of the script on the lines, and
whole transactions as the bytes they commit. -/

namespace Sys2Proof

open Machine

/-! ### The rows of the command table (R65) -/

/-- A table command is written as a byte of the table, which decodes to it. -/
theorem encode_tableCommand {i : Instr} (h : isTableCommand i = true) (cfg : Config) :
    ∃ b, encode cfg i = .byte .commandPhase .none b ∧ inCommandTable b = true ∧ decodeOpcode [] b = i := by
  cases i with
  | setLowCol n => exact ⟨_, rfl, by revert n; decide, by revert n; decide⟩
  | setHighCol n => exact ⟨_, rfl, by revert n; decide, by revert n; decide⟩
  | setPage p => exact ⟨_, rfl, by revert p; decide, by revert p; decide⟩
  | setMemMode | setContrast | segRemap0 | segRemap1 | normalDisplay | invertDisplay | displayOff | displayOn | comScanInc
  | comScanDec => exact ⟨_, rfl, rfl, rfl⟩
  | _ => cases h

/-- The expansions of CMDS, DATA and FAST name parameters of R4; a byte-level row is written the same whatever they are. -/
theorem encode_of_kind_byte {i : Instr} (h : i.kind = .byte) (cfg cfg' : Config) : encode cfg i = encode cfg' i := by
  cases i with
  | cmds | dataTxn | fast => cases h
  | _ => rfl

/-- A byte of the table is written back by the row it selects. -/
theorem encode_decodeOpcode_of_inTable {b : Byte} (h : inCommandTable b = true) (cfg : Config) :
    encode cfg (decodeOpcode [] b) = .byte .commandPhase .none b := by
  rw [encode_of_kind_byte (kind_decodeOpcode [] b) cfg Config.standard]
  revert b
  decide +kernel

/-- Every value of a table command's field is legal. -/
theorem wf_tableCommand {i : Instr} (h : isTableCommand i = true) (ext : List ExtCmd) : i.wf ext = true := by
  cases i with
  | unrecognised b => cases h
  | extCmd b p => cases h
  | _ => rfl

/-! ### Addresses and commands by their numbers -/

theorem addrField_append (a : BitVec 7) (rw : Bool) : addrField (a ++ BitVec.ofBool rw) = a := by
  revert a rw; decide +kernel

theorem getLsbD_zero_append_ofBool (a : BitVec 7) (rw : Bool) : (a ++ BitVec.ofBool rw).getLsbD 0 = rw := by
  revert a rw; decide +kernel

theorem addrField_append_getLsbD (b : Byte) : addrField b ++ BitVec.ofBool (b.getLsbD 0) = b := by
  revert b; decide +kernel

theorem addrField_eq_ofNat (b : Byte) : addrField b = BitVec.ofNat 7 (b.toNat / 2) := by
  revert b; decide +kernel

theorem getLsbD_zero_eq_decide (b : Byte) : b.getLsbD 0 = decide (b.toNat % 2 = 1) := by
  revert b; decide +kernel

/-- What the decoder can answer for a control byte (R63). -/
theorem decodeControl_ok {b : Byte} {i : Instr} (h : decodeControl b = .ok i) :
    (b = 0x00 ∧ i = .ctrlCmd) ∨ (b = 0x40 ∧ i = .ctrlData) := by
  unfold decodeControl at h
  split at h
  · cases h; exact .inl ⟨‹_›, rfl⟩
  · split at h
    · cases h; exact .inr ⟨‹_›, rfl⟩
    · cases h

/-- The bytes of the command table by ascending value (R70). -/
def commandAt (b : Byte) : Option Instr :=
  if b.toNat ≤ 0x0F then some (.setLowCol (BitVec.ofNat 4 b.toNat))
  else if b.toNat ≤ 0x1F then some (.setHighCol (BitVec.ofNat 4 (b.toNat - 0x10)))
  else if b.toNat = 0x20 then some .setMemMode
  else if b.toNat = 0x81 then some .setContrast
  else if b.toNat = 0xA0 then some .segRemap0
  else if b.toNat = 0xA1 then some .segRemap1
  else if b.toNat = 0xA6 then some .normalDisplay
  else if b.toNat = 0xA7 then some .invertDisplay
  else if b.toNat = 0xAE then some .displayOff
  else if b.toNat = 0xAF then some .displayOn
  else if 0xB0 ≤ b.toNat ∧ b.toNat ≤ 0xB7 then some (.setPage (BitVec.ofNat 3 (b.toNat - 0xB0)))
  else if b.toNat = 0xC0 then some .comScanInc
  else if b.toNat = 0xC8 then some .comScanDec
  else none

theorem commandAt_eq (b : Byte) : commandAt b = if inCommandTable b then some (decodeOpcode [] b) else none := by
  revert b; decide +kernel

theorem getD_ite_some {α : Type} (p : Prop) [Decidable p] (a x : α) (o : Option α) :
    (if p then some a else o).getD x = if p then a else o.getD x := by split <;> rfl

/-- The decoder of opcodes: the table by ascending value, then the extra commands. -/
theorem decodeOpcode_eq_commandAt (ext : List ExtCmd) (b : Byte) :
    decodeOpcode ext b = (commandAt b).getD (match findExt ext b with
      | some e => .extCmd b e.hasParam
      | none => .unrecognised b) := by
  rw [commandAt_eq]
  cases ht : inCommandTable b
  · exact decodeOpcode_of_notInTable ext ht
  · exact decodeOpcode_of_inTable ext ht

/-! ### Decoding and encoding -/

/-- A row of the events is written as the event that names it (R5, R74). -/
theorem decodeEncoding_encode_event {i : Instr} (h : i.kind = .event) (cfg : Config) (ext : List ExtCmd) :
    decodeEncoding ext (encode cfg i) = .ok i := by
  cases i with
  | setup | teardown | sclEdge | sdaEdge | regWriteData | regWriteStatus | setRefreshTiming | frameTick | toggleEdge
  | sampleTick | readAudio => rfl
  | _ => cases h

theorem decodeEncoding_encode_tableCommand {i : Instr} (h : isTableCommand i = true) (cfg : Config) (ext : List ExtCmd) :
    decodeEncoding ext (encode cfg i) = .ok i := by
  obtain ⟨b, hb, ht, hi⟩ := encode_tableCommand h cfg
  rw [hb]
  exact congrArg Except.ok ((decodeOpcode_of_inTable ext ht).trans hi)

/-- A well-formed UNRECOGNISED holds a byte that neither the table nor `ExtCmds` takes (R72). -/
theorem decodeOpcode_of_wf_unrecognised {ext : List ExtCmd} {b : Byte} (h : (Instr.unrecognised b).wf ext = true) :
    decodeOpcode ext b = .unrecognised b := by
  simp only [Instr.wf, Bool.and_eq_true, Bool.not_eq_true', Option.isNone_iff_eq_none] at h
  obtain ⟨ht, hext⟩ := h
  rw [decodeOpcode_of_notInTable ext ht, hext]

/-- A well-formed EXTCMD holds a byte that the table leaves to `ExtCmds`, with the parameter count of its first entry (R71). -/
theorem decodeOpcode_of_wf_extCmd {ext : List ExtCmd} {b : Byte} {p : Bool} (h : (Instr.extCmd b p).wf ext = true) :
    decodeOpcode ext b = .extCmd b p := by
  simp only [Instr.wf, Bool.and_eq_true, Bool.not_eq_true', decide_eq_true_eq, Option.map_eq_some_iff] at h
  obtain ⟨ht, e, hext, rfl⟩ := h
  rw [decodeOpcode_of_notInTable ext ht, hext]

/-- Decoding what a well-formed byte-level row is written as gives it back. -/
theorem decodeEncoding_encode_byte {cfg : Config} {i : Instr} (hwf : i.wf cfg.extCmds = true) (hk : i.kind = .byte) :
    decodeEncoding cfg.extCmds (encode cfg i) = .ok i := by
  cases i with
  | addr a rw => simp only [encode, decodeEncoding, decodeByte, addrField_append, getLsbD_zero_append_ofBool]
  | ctrlCmd | ctrlData | paramMemMode | paramContrast | paramSkip | data => rfl
  | setLowCol | setHighCol | setMemMode | setContrast | segRemap0 | segRemap1 | normalDisplay | invertDisplay | displayOff
  | displayOn | setPage | comScanInc | comScanDec => exact decodeEncoding_encode_tableCommand rfl cfg _
  | unrecognised b => exact congrArg Except.ok (decodeOpcode_of_wf_unrecognised hwf)
  | extCmd b p => exact congrArg Except.ok (decodeOpcode_of_wf_extCmd hwf)
  | _ => cases hk

/-- What the decoder of opcodes reads from a byte is well formed and written as that byte. -/
theorem wf_encode_decodeOpcode (cfg : Config) (b : Byte) :
    (decodeOpcode cfg.extCmds b).wf cfg.extCmds = true ∧
      encode cfg (decodeOpcode cfg.extCmds b) = .byte .commandPhase .none b := by
  cases ht : inCommandTable b
  · rw [decodeOpcode_of_notInTable _ ht]
    cases hext : findExt cfg.extCmds b with
    | none => exact ⟨by simp [Instr.wf, ht, hext], rfl⟩
    | some e => exact ⟨by simp [Instr.wf, ht, hext], rfl⟩
  · rw [decodeOpcode_of_inTable _ ht]
    exact ⟨wf_tableCommand (isTableCommand_decodeOpcode ht) _, encode_decodeOpcode_of_inTable ht cfg⟩

/-- What the decoder of command bytes reads is well formed and written as that byte after the same pending parameter. -/
theorem wf_encode_decodeCommand (cfg : Config) (pend : Pending) (b : Byte) :
    (decodeCommand cfg.extCmds pend b).wf cfg.extCmds = true ∧
      encode cfg (decodeCommand cfg.extCmds pend b) = .byte .commandPhase pend b := by
  cases pend with
  | none => exact wf_encode_decodeOpcode cfg b
  | contrast | memMode | skip => exact ⟨rfl, rfl⟩

/-- What the decoder reads from a byte is well formed and written as that byte; what is pending counts in CommandPhase only. -/
theorem wf_encode_of_decodeByte {cfg : Config} {bst : BusState} {pend : Pending} {b : Byte} {i : Instr}
    (h : decodeByte cfg.extCmds bst pend b = .ok i) :
    i.wf cfg.extCmds = true ∧ ∃ pend', encode cfg i = .byte bst pend' b ∧ (bst = .commandPhase → pend' = pend) := by
  cases bst with
  | idle => cases h
  | started =>
    cases h
    exact ⟨rfl, .none, by rw [encode, addrField_append_getLsbD], nofun⟩
  | addressPhase =>
    obtain ⟨rfl, rfl⟩ | ⟨rfl, rfl⟩ := decodeControl_ok h
    · exact ⟨rfl, .none, rfl, nofun⟩
    · exact ⟨rfl, .none, rfl, nofun⟩
  | commandPhase =>
    cases h
    obtain ⟨hwf, henc⟩ := wf_encode_decodeCommand cfg pend b
    exact ⟨hwf, pend, henc, fun _ => rfl⟩
  | dataPhase =>
    cases h
    exact ⟨rfl, .none, rfl, nofun⟩

end Sys2Proof

namespace Sys2Proof.Machine

/-! ### The rising clock edge by its cases (R81) -/

theorem clockRise_of_idle {s : State} (h : s.bus.bst = .idle) : clockRise s = s := if_pos h

/-- With fewer than eight bits in, the data level is sampled (R82). -/
theorem clockRise_of_lt {s : State} (hbst : s.bus.bst ≠ .idle) (hcnt : s.bus.cnt < 8) :
    clockRise s = { s with bus := { s.bus with
      cnt := s.bus.cnt + 1, acc := BitVec.ofNat 8 (2 * s.bus.acc.toNat + s.bus.sda.toNat) } } := by
  rw [clockRise, if_neg hbst, if_pos hcnt, sampleBit, shiftIn_eq_ofNat]
  rfl

/-- With eight bits in, they are committed (R83). -/
theorem clockRise_of_ge {s : State} (hbst : s.bus.bst ≠ .idle) (hcnt : 8 ≤ s.bus.cnt) :
    clockRise s = commitByte s.bus.acc { s with bus := { s.bus with cnt := 0 } } :=
  (if_neg hbst).trans (if_neg (Nat.not_lt.mpr hcnt))

/-- A rising clock edge keeps the gate and both levels. -/
theorem clockRise_lines (s : State) :
    (clockRise s).ready = s.ready ∧ (clockRise s).bus.scl = s.bus.scl ∧ (clockRise s).bus.sda = s.bus.sda := by
  by_cases hbst : s.bus.bst = .idle
  · rw [clockRise_of_idle hbst]; exact ⟨rfl, rfl, rfl⟩
  by_cases hcnt : s.bus.cnt < 8
  · rw [clockRise_of_lt hbst hcnt]; exact ⟨rfl, rfl, rfl⟩
  · rw [clockRise_of_ge hbst (Nat.not_lt.mp hcnt)]
    exact ⟨commitByte_ready .., commitByte_scl .., commitByte_sda ..⟩

/-! ### A byte and the registers of the bus it does not read -/

/-- The state in its own transaction state, with every other register of the bus as in `bus`. -/
def State.withBusRegs (s : State) (bus : Bus) : State := { s with bus := { bus with bst := s.bus.bst } }

/-- A committed byte neither reads nor writes a register of the bus but `bst`. -/
theorem commitByte_withBusRegs (b : Byte) (s : State) (bus : Bus) :
    commitByte b (s.withBusRegs bus) = (commitByte b s).withBusRegs bus := by
  rw [commitByte_of_same b (s := s) (t := s.withBusRegs bus) rfl rfl rfl]
  conv_rhs => rw [commitByte_frame]
  rfl

/-- Bytes committed in order, each in the context the bytes before it left. -/
def commitAll (bs : List Byte) (s : State) : State := bs.foldl (fun v b => commitByte b v) s

theorem commitAll_cons (b : Byte) (bs : List Byte) (s : State) :
    commitAll (b :: bs) s = commitAll bs (commitByte b s) := rfl

theorem commitAll_withBusRegs (bs : List Byte) (s : State) (bus : Bus) :
    commitAll bs (s.withBusRegs bus) = (commitAll bs s).withBusRegs bus := by
  induction bs generalizing s with
  | nil => rfl
  | cons b bs ih => rw [commitAll_cons, commitByte_withBusRegs, ih, commitAll_cons]

theorem commitAll_dr (bs : List Byte) (s : State) : (commitAll bs s).bus.dr = s.bus.dr := by
  induction bs generalizing s with
  | nil => rfl
  | cons b bs ih => exact (ih (commitByte b s)).trans (commitByte_dr b s)

theorem commitAll_ready (bs : List Byte) (s : State) : (commitAll bs s).ready = s.ready := by
  induction bs generalizing s with
  | nil => rfl
  | cons b bs ih => exact (ih (commitByte b s)).trans (commitByte_ready b s)

/-! ### The phrases on the lines (R76) -/

/-- The state after the data level `d` and a rising clock edge, from the clock low. -/
def State.afterRise (d : Bool) (s : State) : State := clockRise { s with bus := { s.bus with scl := true, sda := d } }

theorem afterRise_of_idle {s : State} (d : Bool) (h : s.bus.bst = .idle) :
    s.afterRise d = { s with bus := { s.bus with scl := true, sda := d } } :=
  clockRise_of_idle (s := { s with bus := { s.bus with scl := true, sda := d } }) h

theorem afterRise_of_lt {s : State} (d : Bool) (hbst : s.bus.bst ≠ .idle) (hcnt : s.bus.cnt < 8) :
    s.afterRise d = { s with bus := { s.bus with
      scl := true, sda := d, cnt := s.bus.cnt + 1, acc := BitVec.ofNat 8 (2 * s.bus.acc.toNat + d.toNat) } } :=
  clockRise_of_lt (s := { s with bus := { s.bus with scl := true, sda := d } }) hbst hcnt

theorem afterRise_of_ge {s : State} (d : Bool) (hbst : s.bus.bst ≠ .idle) (hcnt : 8 ≤ s.bus.cnt) :
    s.afterRise d = (commitByte s.bus.acc s).withBusRegs { s.bus with scl := true, sda := d, cnt := 0 } :=
  (clockRise_of_ge (s := { s with bus := { s.bus with scl := true, sda := d } }) hbst hcnt).trans
    (commitByte_withBusRegs s.bus.acc s { s.bus with scl := true, sda := d, cnt := 0 })

theorem deliverAll_rise (d : Bool) {s : State} (hr : s.ready = true) (hscl : s.bus.scl = false) :
    deliverAll [.sdaEdge d, .sclEdge true] s = s.afterRise d := by
  rw [deliverAll_cons, deliver_sdaEdge_of_low hr hscl]
  exact (gate_of_ready (s := s.setBus (s.bus.setSda d)) hr _ _).trans (if_pos ⟨hscl, rfl⟩)

/-- A falling clock edge stores the level and nothing else (R81). -/
theorem deliver_sclFall {s : State} (hr : s.ready = true) :
    deliver s (.sclEdge false) = { s with bus := { s.bus with scl := false } } :=
  (gate_of_ready hr _ _).trans (if_neg nofun)

/-- The state after a start on the lines and the clock's fall. -/
def State.opened (s : State) : State :=
  { s with bus := { s.bus with scl := false, sda := false, bst := .started, cnt := 0 } }

/-- The state after a stop on the lines. -/
def State.closed (s : State) : State :=
  { s with bus := { s.bus with scl := true, sda := true, bst := .idle, cnt := 0 } }

/-- START on high lines is a start condition (R85). -/
theorem deliverAll_start {s : State} (hr : s.ready = true) (hscl : s.bus.scl = true) (hsda : s.bus.sda = true) :
    deliverAll startEvents s = s.opened := by
  have hfall : deliver s (.sdaEdge false) = startCondition (s.setBus (s.bus.setSda false)) :=
    (gate_of_ready hr _ _).trans (dataEdge_of_start ⟨hscl, hsda, rfl⟩)
  rw [startEvents, deliverAll_cons, hfall]
  exact deliver_sclFall (s := startCondition (s.setBus (s.bus.setSda false))) hr

/-- A rise of the data line under a high clock is a stop condition (R86). -/
theorem deliver_stop {s : State} (hr : s.ready = true) (hscl : s.bus.scl = true) (hsda : s.bus.sda = false) :
    deliver s (.sdaEdge true) = s.closed := by
  have hrise : deliver s (.sdaEdge true) = stopCondition (s.setBus (s.bus.setSda true)) :=
    (gate_of_ready hr _ _).trans (dataEdge_of_stop nofun ⟨hscl, hsda, rfl⟩)
  rw [hrise, stopCondition_eq, State.closed, ← hscl]
  rfl

section
variable {s : State} (hr : s.ready = true) (hscl : s.bus.scl = false)
include hr hscl

/-- BIT d: a rising clock edge on the level `d`, then the clock's fall. -/
theorem deliverAll_bit (d : Bool) :
    deliverAll (bitEvents d) s = (s.afterRise d).setBus ((s.afterRise d).bus.setScl false) := by
  obtain ⟨hready, -, -⟩ := clockRise_lines { s with bus := { s.bus with scl := true, sda := d } }
  rw [show bitEvents d = [.sdaEdge d, .sclEdge true] ++ [.sclEdge false] from rfl, deliverAll_append, deliverAll_rise d hr hscl]
  exact deliver_sclFall (hready.trans hr)

/-- RESTART: a rising clock edge on the level 1, then a start. -/
theorem deliverAll_restart : deliverAll restartEvents s = (s.afterRise true).opened := by
  obtain ⟨hready, hclk, hdat⟩ := clockRise_lines { s with bus := { s.bus with scl := true, sda := true } }
  rw [show restartEvents = [.sdaEdge true, .sclEdge true] ++ startEvents from rfl, deliverAll_append, deliverAll_rise true hr hscl]
  exact deliverAll_start (hready.trans hr) hclk hdat

/-- STOP: a rising clock edge on the level 0, then a stop. -/
theorem deliverAll_stop : deliverAll stopEvents s = (s.afterRise false).closed := by
  obtain ⟨hready, hclk, hdat⟩ := clockRise_lines { s with bus := { s.bus with scl := true, sda := false } }
  rw [show stopEvents = [.sdaEdge false, .sclEdge true] ++ [.sdaEdge true] from rfl, deliverAll_append,
    deliverAll_rise false hr hscl]
  exact deliver_stop (hready.trans hr) hclk hdat

end

/-! ### A whole byte (BYTE of R76) -/

/-- The levels of a byte on the data line, most significant bit first. -/
def byteLevels (v : Byte) : List Bool :=
  [v.getLsbD 7, v.getLsbD 6, v.getLsbD 5, v.getLsbD 4, v.getLsbD 3, v.getLsbD 2, v.getLsbD 1, v.getLsbD 0]

/-- The levels of a byte spell it. -/
theorem spelled_byteLevels (v : Byte) : BitVec.ofNat 8 (spelled 0 (byteLevels v)) = v := by
  revert v; decide +kernel

/-- BYTE v: a bit for each level and, as the acknowledgement, a bit at level 1. -/
theorem byteEvents_eq (v : Byte) : byteEvents v = (byteLevels v ++ [true]).flatMap bitEvents := rfl

/-- In Idle of any bits on the lines the last data level stays, and nothing else changes. -/
theorem deliverAll_bits_of_idle (levels : List Bool) {s : State} (hr : s.ready = true) (hscl : s.bus.scl = false)
    (hbst : s.bus.bst = .idle) :
    deliverAll (levels.flatMap bitEvents) s = s.setBus (s.bus.setSda (levels.getLastD s.bus.sda)) := by
  induction levels generalizing s with
  | nil => rfl
  | cons d levels ih =>
    have hbit : deliverAll (bitEvents d) s = s.setBus (s.bus.setSda d) := by
      rw [deliverAll_bit hr hscl, afterRise_of_idle d hbst, State.setBus, Bus.setSda, ← hscl]; rfl
    rw [List.flatMap_cons, deliverAll_append, hbit, List.getLastD_cons]
    exact ih hr hscl hbst

/-- Eight bits from a byte boundary of a transaction leave the byte they spell in the accumulator. -/
theorem deliverAll_eightBits {levels : List Bool} (hlen : levels.length = 8) {s : State} (hr : s.ready = true)
    (hscl : s.bus.scl = false) (hbst : s.bus.bst ≠ .idle) (hcnt : s.bus.cnt = 0) :
    ∃ sda, deliverAll (levels.flatMap bitEvents) s = { s with bus := { s.bus with
      sda := sda, acc := BitVec.ofNat 8 (spelled 0 levels), cnt := 8 } } := by
  have hsnd : (levels.map fun d => (([] : List Bool), d)).map Prod.snd = levels := by rw [List.map_map]; exact List.map_id levels
  obtain ⟨sda, hbits⟩ := deliverAll_wireBits (levels.map fun d => ([], d)) hr hscl hbst (by rw [hcnt, List.length_map, hlen])
  rw [List.flatMap_map, hsnd, foldl_shiftIn_eight hlen, List.length_map, hlen, hcnt] at hbits
  exact ⟨sda, hbits⟩

/-- BYTE v at a byte boundary of a transaction commits `v`. -/
theorem deliverAll_byte_of_active (v : Byte) {s : State} (hr : s.ready = true) (hscl : s.bus.scl = false)
    (hbst : s.bus.bst ≠ .idle) (hcnt : s.bus.cnt = 0) :
    deliverAll (byteEvents v) s = (commitByte v s).withBusRegs { s.bus with sda := true, acc := v } := by
  obtain ⟨sda, hbits⟩ := deliverAll_eightBits (levels := byteLevels v) rfl hr hscl hbst hcnt
  rw [spelled_byteLevels] at hbits
  rw [byteEvents_eq, List.flatMap_append, deliverAll_append, hbits]
  refine (deliverAll_bit (s := s.withBusRegs { s.bus with sda := sda, acc := v, cnt := 8 }) hr hscl true).trans ?_
  rw [afterRise_of_ge (s := s.withBusRegs { s.bus with sda := sda, acc := v, cnt := 8 }) true hbst (Nat.le_refl 8),
    commitByte_withBusRegs, ← hscl, ← hcnt]
  rfl

/-- BYTE v at a byte boundary on a ready block, in a transaction or not: its effect, the data line high, some accumulator. -/
theorem deliverAll_byte (v : Byte) {s : State} (hr : s.ready = true) (hscl : s.bus.scl = false) (hcnt : s.bus.cnt = 0) :
    ∃ acc, deliverAll (byteEvents v) s = (commitByte v s).withBusRegs { s.bus with sda := true, acc := acc } := by
  by_cases hbst : s.bus.bst = .idle
  · rw [byteEvents_eq, deliverAll_bits_of_idle _ hr hscl hbst, List.getLastD_concat, commitByte_idle hbst]
    exact ⟨s.bus.acc, rfl⟩
  · exact ⟨v, deliverAll_byte_of_active v hr hscl hbst hcnt⟩

/-- FAST v: the latched byte goes through the same commit (R91). -/
theorem deliverAll_fast (v : Byte) {s : State} (hr : s.ready = true) :
    deliverAll (fastEvents s.cfg v) s = commitByte v { s with bus := { s.bus with dr := v, cnt := 0 } } := by
  have hlatch : deliver s (.regWrite .data v) = latchData v s := gate_of_ready hr _ _
  rw [fastEvents, deliverAll_cons, hlatch]
  exact (gate_of_ready (s := latchData v s) hr _ _).trans (if_pos rfl)

/-- Events that each do nothing do nothing one after another. -/
theorem deliverAll_eq_self {s : State} {es : List Event} (h : ∀ e ∈ es, deliver s e = s) : deliverAll es s = s := by
  induction es with
  | nil => rfl
  | cons e es ih =>
    obtain ⟨he, hes⟩ := List.forall_mem_cons.mp h
    rw [deliverAll_cons, he, ih hes]

/-- On a block that is not ready no bits on the lines do anything (R177). -/
theorem deliverAll_bits_of_not_ready (levels : List Bool) {s : State} (hr : s.ready = false) :
    deliverAll (levels.flatMap bitEvents) s = s := by
  refine deliverAll_eq_self fun e he => ?_
  obtain ⟨d, -, he⟩ := List.mem_flatMap.mp he
  simp only [bitEvents, List.mem_cons, List.not_mem_nil, or_false] at he
  obtain rfl | rfl | rfl := he <;> exact gate_of_not_ready hr none _

theorem deliverAll_fast_of_not_ready (v : Byte) {s : State} (hr : s.ready = false) :
    deliverAll (fastEvents s.cfg v) s = s := by
  refine deliverAll_eq_self fun e he => ?_
  simp only [fastEvents, List.mem_cons, List.not_mem_nil, or_false] at he
  obtain rfl | rfl := he <;> exact gate_of_not_ready hr none _

/-! ### A whole transaction (TXN, CMDS, DATA of R76) -/

/-- Bytes on a ready block from a byte boundary: their effects in order, and some data level and accumulator. -/
theorem deliverAll_bytes (bs : List Byte) {s : State} (hr : s.ready = true) (hscl : s.bus.scl = false) (hcnt : s.bus.cnt = 0) :
    ∃ sda acc, deliverAll (bs.flatMap byteEvents) s =
      (commitAll bs s).withBusRegs { s.bus with sda := sda, acc := acc } := by
  induction bs generalizing s with
  | nil => exact ⟨s.bus.sda, s.bus.acc, rfl⟩
  | cons b bs ih =>
    obtain ⟨acc, hbyte⟩ := deliverAll_byte b hr hscl hcnt
    obtain ⟨sda', acc', hbytes⟩ := ih (s := (commitByte b s).withBusRegs { s.bus with sda := true, acc := acc })
      ((commitByte_ready b s).trans hr) hscl hcnt
    rw [List.flatMap_cons, deliverAll_append, hbyte, hbytes, commitAll_withBusRegs]
    exact ⟨sda', acc', rfl⟩

/-- STOP at a byte boundary ends the transaction, and leaves some accumulator. -/
theorem deliverAll_stop_of_boundary {s : State} (hr : s.ready = true) (hscl : s.bus.scl = false) (hcnt : s.bus.cnt = 0) :
    ∃ acc, deliverAll stopEvents s = (s.setBus (s.bus.setAcc acc)).closed := by
  rw [deliverAll_stop hr hscl]
  by_cases hbst : s.bus.bst = .idle
  · rw [afterRise_of_idle false hbst]; exact ⟨s.bus.acc, rfl⟩
  · rw [afterRise_of_lt false hbst (by omega)]; exact ⟨_, rfl⟩

/-- A stop writes over every register of the bus but `acc` and `dr`. -/
theorem closed_withBusRegs {s : State} {bus : Bus} (hdr : bus.dr = s.bus.dr) :
    (s.withBusRegs bus).closed = (s.setBus (s.bus.setAcc bus.acc)).closed := by
  rw [State.withBusRegs, State.closed, hdr]
  rfl

/-- The state in another transaction state. -/
def State.inPhase (s : State) (bst : BusState) : State := s.setBus (s.bus.setBst bst)

/-- TXN from high lines: the bytes in order after a start, then the lines and the transaction as a stop leaves them. -/
theorem deliverAll_txn (bs : List Byte) {s u : State} (hu : u = commitAll bs (s.inPhase .started))
    (hr : s.ready = true) (hscl : s.bus.scl = true) (hsda : s.bus.sda = true) :
    ∃ acc, deliverAll (txnEvents bs) s = (u.setBus (u.bus.setAcc acc)).closed := by
  have hdr : u.bus.dr = s.bus.dr := hu ▸ commitAll_dr bs _
  have hopened : commitAll bs s.opened = u.withBusRegs s.opened.bus :=
    hu ▸ commitAll_withBusRegs bs (s.inPhase .started) s.opened.bus
  obtain ⟨sda, acc, hbytes⟩ := deliverAll_bytes bs (s := s.opened) hr rfl rfl
  obtain ⟨acc', hstop⟩ := deliverAll_stop_of_boundary (s := u.withBusRegs { s.opened.bus with sda := sda, acc := acc })
    (hu ▸ (commitAll_ready bs _).trans hr) rfl rfl
  rw [hopened] at hbytes
  refine ⟨acc', ?_⟩
  rw [txnEvents, deliverAll_append, deliverAll_append, deliverAll_start hr hscl hsda, hbytes]
  exact hstop.trans (closed_withBusRegs (bus := { s.opened.bus with sda := sda, acc := acc' }) hdr.symm)

/-- The address byte of CMDS and DATA carries `DEV_ADDR` (R76). -/
theorem commitByte_addrByte (s : State) : commitByte (addrByte s.cfg) (s.inPhase .started) = s.inPhase .addressPhase := by
  have hfield : addrField (addrByte s.cfg) = s.cfg.devAddr := addrField_append s.cfg.devAddr false
  rw [commitByte_ok (s := s.inPhase .started) (i := .addr (addrField (addrByte s.cfg)) ((addrByte s.cfg).getLsbD 0)) rfl, hfield]
  exact if_pos (beq_self_eq_true s.cfg.devAddr)

/-- The first two bytes of CMDS select commands (R89, R92). -/
theorem commitAll_cmds (cs : List Byte) (s : State) :
    commitAll (addrByte s.cfg :: 0x00 :: cs) (s.inPhase .started) = commitAll cs (s.inPhase .commandPhase) := by
  rw [commitAll_cons, commitByte_addrByte]
  rfl

/-- The first two bytes of DATA select data (R89, R92). -/
theorem commitAll_data (ds : List Byte) (s : State) :
    commitAll (addrByte s.cfg :: 0x40 :: ds) (s.inPhase .started) = commitAll ds (s.inPhase .dataPhase) := by
  rw [commitAll_cons, commitByte_addrByte]
  rfl

/-- Data bytes one after another as instructions, and as bytes of a data transaction, write the DISPLAY sub-block alike. -/
theorem runInstrs_data (bs : List Byte) (s : State) :
    ∃ u, runInstrs (bs.map .data) s = .next u ∧
      commitAll bs (s.inPhase .dataPhase) = u.inPhase .dataPhase := by
  induction bs generalizing s with
  | nil => exact ⟨s, rfl, rfl⟩
  | cons b bs ih =>
    obtain ⟨u, hrun, hcommit⟩ := ih (dataByte b s)
    refine ⟨u, hrun, ?_⟩
    rw [commitAll_cons, commitByte_data rfl]
    exact hcommit

end Sys2Proof.Machine

/-! ### The statements -/

namespace Sys2Proof.Proofs

open Sys2Proof.Machine

/-- Settles O1: by the level a row is written at; a byte of the table decodes without `ExtCmds`, any other opcode by them. -/
theorem decodingAnEncodingGivesTheInstructionBack : Obligations.DecodingAnEncodingGivesTheInstructionBack := by
  intro cfg i hwf hscript
  cases hk : i.kind with
  | byte => exact decodeEncoding_encode_byte hwf hk
  | event => exact decodeEncoding_encode_event hk cfg _
  | script => exact absurd hk hscript

/-- Settles O2: by the context, and in CommandPhase by the pending parameter and the table. -/
theorem encodingADecodedByteGivesTheByteBack : Obligations.EncodingADecodedByteGivesTheByteBack := by
  intro cfg bst pend b i h
  obtain ⟨hwf, henc⟩ := wf_encode_of_decodeByte h
  exact ⟨hwf, kind_of_decodeByte h, henc⟩

/-- Settles O3: the chain of the statement is `commandAt` with the extra commands where that has no row. -/
theorem commandMapByAscendingValue : Obligations.CommandMapByAscendingValue := by
  intro ext b
  refine congrArg Except.ok ((decodeOpcode_eq_commandAt ext b).trans ?_)
  simp only [commandAt, getD_ite_some]
  rfl

/-- Settles O4: each word is decoded. -/
theorem wordsOfTheSpecDecode : Obligations.WordsOfTheSpecDecode :=
  ⟨rfl, rfl, rfl, rfl, rfl, rfl, rfl, rfl, rfl, rfl, rfl, rfl⟩

/-- Settles O27: each phrase is a rising clock edge on its data level, in one of its three cases, with the phrase's own end. -/
theorem scriptPhrasesOnTheLines : Obligations.ScriptPhrasesOnTheLines := by
  intro s hr
  have hrestart (hscl : s.bus.scl = false) : exec .restart s = .next (s.afterRise true).opened :=
    congrArg Host.Outcome.next (deliverAll_restart hr hscl)
  have hidle (hscl : s.bus.scl = false) (hbst : s.bus.bst = .idle) (d : Bool) :
      exec (.bit d) s = .next { s with bus := { s.bus with scl := false, sda := d } } := by
    refine congrArg Host.Outcome.next ((deliverAll_bit hr hscl d).trans ?_)
    rw [afterRise_of_idle d hbst]; rfl
  have hsample (hscl : s.bus.scl = false) (hbst : s.bus.bst ≠ .idle) (hcnt : s.bus.cnt < 8) (d : Bool) :
      exec (.bit d) s = .next { s with bus := { s.bus with
        scl := false, sda := d, cnt := s.bus.cnt + 1, acc := BitVec.ofNat 8 (2 * s.bus.acc.toNat + d.toNat) } } := by
    refine congrArg Host.Outcome.next ((deliverAll_bit hr hscl d).trans ?_)
    rw [afterRise_of_lt d hbst hcnt]; rfl
  have hcommit (hscl : s.bus.scl = false) (hbst : s.bus.bst ≠ .idle) (hcnt : 8 ≤ s.bus.cnt) (d : Bool) :
      exec (.bit d) s = .next (commitByte s.bus.acc { s with bus := { s.bus with scl := false, sda := d, cnt := 0 } }) := by
    refine congrArg Host.Outcome.next ((deliverAll_bit hr hscl d).trans ?_)
    rw [afterRise_of_ge d hbst hcnt]
    exact (commitByte_withBusRegs s.bus.acc s { s.bus with scl := false, sda := d, cnt := 0 }).symm
  refine ⟨fun hscl hsda => ?_, fun hscl hbst hcnt => ?_, fun hscl hbst hcnt => ⟨_, rfl, ?_⟩, fun hscl hbst => ?_,
    hsample, hcommit, hidle, fun hscl hbst hcnt => hsample hscl hbst hcnt true,
    fun hscl hbst hcnt => hcommit hscl hbst hcnt true, fun hscl hbst => hidle hscl hbst true⟩
  · exact congrArg Host.Outcome.next (deliverAll_start hr hscl hsda)
  · rw [hrestart hscl, afterRise_of_lt true hbst hcnt]; rfl
  · rw [hrestart hscl, afterRise_of_ge true hbst hcnt]
    simp only [State.opened, State.withBusRegs, commitByte_acc, commitByte_dr]
  · rw [hrestart hscl, afterRise_of_idle true hbst]; rfl

/-- Settles O28: a rising clock edge on the level 0 in its three cases, then the stop. -/
theorem stopSequenceCommitsAnUnacknowledgedByte : Obligations.StopSequenceCommitsAnUnacknowledgedByte := by
  intro s hr hscl
  have hstop : exec .stop s = .next (s.afterRise false).closed := congrArg Host.Outcome.next (deliverAll_stop hr hscl)
  rw [hstop]
  refine ⟨fun hbst hcnt => ?_, fun hbst hcnt => ⟨_, rfl, ?_⟩, fun hbst => ?_⟩
  · rw [afterRise_of_lt false hbst hcnt]; rfl
  · rw [afterRise_of_ge false hbst hcnt.ge]
    simp only [State.closed, State.withBusRegs, commitByte_acc, commitByte_dr]
  · rw [afterRise_of_idle false hbst]; rfl

/-- Settles O29: the eight levels of BYTE spell `v` at the ninth rise; FAST latches `v` and commits the latch. -/
theorem byteAndFastCommitTheirByte : Obligations.ByteAndFastCommitTheirByte := by
  intro s v hr
  refine ⟨fun hscl hbst hcnt => congrArg Host.Outcome.next ?_, congrArg Host.Outcome.next (deliverAll_fast v hr)⟩
  rw [deliverAll_byte_of_active v hr hscl hbst hcnt, ← commitByte_withBusRegs]
  rfl

/-- Settles O24: on a ready block both paths commit `v` and differ in registers of the bus, on any other neither does anything. -/
theorem bothBytePathsAgree : Obligations.BothBytePathsAgree := by
  intro s v hcnt hscl
  refine ⟨_, _, rfl, rfl, ?_⟩
  cases hr : s.ready with
  | false =>
    rw [byteEvents_eq, deliverAll_bits_of_not_ready _ hr, deliverAll_fast_of_not_ready v hr]
  | true =>
    obtain ⟨acc, hbyte⟩ := deliverAll_byte v hr hscl hcnt
    have hfast : deliverAll (fastEvents s.cfg v) s = (commitByte v s).withBusRegs { s.bus with dr := v, cnt := 0 } :=
      (deliverAll_fast v hr).trans (commitByte_withBusRegs v s { s.bus with dr := v, cnt := 0 })
    rw [hbyte, hfast, ← hcnt]
    rfl

/-- Settles O30: `deliverAll_txn`. -/
theorem transactionCommitsItsBytesInOrder : Obligations.TransactionCommitsItsBytesInOrder := by
  intro s bs hr hscl hsda
  obtain ⟨acc, htxn⟩ := deliverAll_txn bs rfl hr hscl hsda
  exact ⟨_, acc, rfl, congrArg Host.Outcome.next htxn⟩

/-- Settles O31: both are transactions, whose first two bytes select the phase. -/
theorem commandAndDataTransactions : Obligations.CommandAndDataTransactions := by
  intro s bs hr hscl hsda
  constructor
  · obtain ⟨acc, htxn⟩ := deliverAll_txn _ (commitAll_cmds bs s).symm hr hscl hsda
    exact ⟨_, acc, rfl, congrArg Host.Outcome.next htxn⟩
  · obtain ⟨u, hrun, hdata⟩ := runInstrs_data bs s
    obtain ⟨acc, htxn⟩ := deliverAll_txn _ (hdata.symm.trans (commitAll_data bs s).symm) hr hscl hsda
    exact ⟨u, acc, hrun, congrArg Host.Outcome.next htxn⟩

/-- Settles O19: a byte with an instruction in its context runs it; in Idle and for any other control byte it has none. -/
theorem commitDispatchesOnTheBusState : Obligations.CommitDispatchesOnTheBusState := by
  intro s b
  refine ⟨fun h => commitByte_idle h b, fun h => exec_of_decodeByte ?_,
    fun h => ⟨fun hb => exec_of_decodeByte ?_, fun hb => exec_of_decodeByte ?_, fun hcmd hdata => ?_⟩,
    fun h => exec_of_decodeByte ?_, fun h => exec_of_decodeByte ?_⟩
  · rw [h, decodeByte, addrField_eq_ofNat, getLsbD_zero_eq_decide]
  · rw [h, hb]; rfl
  · rw [h, hb]; rfl
  · have hreject : decodeControl b = .error .badControl := (if_neg hcmd).trans (if_neg hdata)
    rw [commitByte, h, decodeByte, hreject]
    rfl
  · rw [h]; rfl
  · rw [h]; rfl

/-- Settles O20: the address match as a test on numbers; the control bytes by their definition. -/
theorem addressAndControlBytesSelectThePhase : Obligations.AddressAndControlBytesSelectThePhase := by
  intro s
  refine ⟨fun a rw => congrArg Host.Outcome.next ?_, rfl, rfl⟩
  simp only [commitAddress, addrMatch, beq_iff_eq, ← BitVec.toNat_inj]
  split <;> rfl

/-- Settles O34: the numbers that the two concatenations spell. -/
theorem columnNibbleCommands : Obligations.ColumnNibbleCommands :=
  fun s n => ⟨⟨_, toNat_colWithLow s.disp.col n, rfl⟩, ⟨_, toNat_colWithHigh s.disp.col n, rfl⟩⟩

/-- Settles O36: the two low bits of the parameter by `memModeOf_eq`. -/
theorem modeParameterSelectsOrDesyncs : Obligations.ModeParameterSelectsOrDesyncs := by
  intro s v
  refine congrArg Host.Outcome.next ?_
  rw [paramMemMode, memModeOf_eq]
  by_cases hhor : v.toNat % 4 = 0
  · rw [if_pos hhor, if_pos hhor]; rfl
  by_cases hpage : v.toNat % 4 = 2
  · rw [if_neg hhor, if_pos hpage, if_neg hhor, if_pos hpage]; rfl
  · rw [if_neg hhor, if_neg hpage, if_neg hhor, if_neg hpage]; rfl

end Sys2Proof.Proofs

/-! SUPPORT. The statements of `40_bus_events.md`: the two lines and the sentinel write on a ready block, and from what an event and
a committed byte do to `bst` the transition table. -/

namespace Sys2Proof.Machine

/-! ### The clock line (R81) -/

/-- A change of the clock from 0 to 1 is a rising edge (D5); any other edge only stores the level. -/
theorem clockEdge_of_rise {s : State} (hscl : s.bus.scl = false) :
    clockEdge true s = clockRise (s.setBus (s.bus.setScl true)) := if_pos ⟨hscl, rfl⟩

theorem clockEdge_of_not_rise {s : State} {l : Bool} (h : ¬ (s.bus.scl = false ∧ l = true)) :
    clockEdge l s = s.setBus (s.bus.setScl l) := if_neg h

/-- A rising clock edge in a transaction with eight bits in commits them (R83). -/
theorem clockEdge_of_ninthPulse {s : State} (hscl : s.bus.scl = false) (hbst : s.bus.bst ≠ .idle) (hcnt : 8 ≤ s.bus.cnt) :
    clockEdge true s = commitByte s.bus.acc { s with bus := { s.bus with scl := true, cnt := 0 } } :=
  (clockEdge_of_rise hscl).trans (clockRise_of_ge (s := s.setBus (s.bus.setScl true)) hbst hcnt)

/-! ### The sentinel write (R91) -/

theorem writeStatus_of_sentinel (s : State) :
    writeStatus s.cfg.srSentinel s = commitByte s.bus.dr { s with bus := { s.bus with cnt := 0 } } := if_pos rfl

/-! ### A step that commits a byte -/

/-- A step whose event does to the state what committing `b` does to `t` runs the instruction `b` decodes to on `t` (R88). -/
theorem step_of_commit {s t : State} {e : Event} {rest : List Event} {b : Byte} {i : Instr} (hin : s.input = e :: rest)
    (hcommit : deliver (s.setInput rest) e = commitByte b t)
    (hdecode : decodeByte t.cfg.extCmds t.bus.bst t.disp.pend b = .ok i) : step s = exec i t := by
  rw [step_cons hin, hcommit, exec_of_decodeByte hdecode]

/-! ### Where a committed byte leads -/

/-- A command of the table leaves BUS alone. -/
theorem runByte_bus_of_isTableCommand {i : Instr} (h : isTableCommand i = true) (s : State) : (runByte i s).bus = s.bus := by
  cases i with
  | setLowCol | setHighCol | setMemMode | setContrast | segRemap0 | segRemap1 | normalDisplay | invertDisplay | displayOff
  | displayOn | setPage | comScanInc | comScanDec => rfl
  | _ => cases h

/-- An opcode ends the transaction iff it is unrecognised. -/
theorem runByte_decodeOpcode_bst (b : Byte) (s : State) :
    (runByte (decodeOpcode s.cfg.extCmds b) s).bus.bst =
      if inCommandTable b = false ∧ findExt s.cfg.extCmds b = none then .idle else s.bus.bst := by
  cases ht : inCommandTable b with
  | true =>
    rw [decodeOpcode_of_inTable _ ht, runByte_bus_of_isTableCommand (isTableCommand_decodeOpcode ht), if_neg (by simp)]
  | false =>
    rw [decodeOpcode_of_notInTable _ ht]
    cases hf : findExt s.cfg.extCmds b with
    | none => rfl
    | some e =>
      obtain ⟨pat, mask, hasParam⟩ := e
      cases hasParam <;> rfl

/-- A mode parameter ends the transaction iff it is odd (R69, D13). -/
theorem paramMemMode_bst (v : Byte) (s : State) :
    (paramMemMode v s).bus.bst = if v.toNat % 2 = 1 then .idle else s.bus.bst := by
  rw [paramMemMode, memModeOf_eq]
  by_cases hhor : v.toNat % 4 = 0
  · rw [if_pos hhor, if_neg (by omega)]; rfl
  by_cases hpage : v.toNat % 4 = 2
  · rw [if_neg hhor, if_pos hpage, if_neg (by omega)]; rfl
  · rw [if_neg hhor, if_neg hpage, if_pos (by omega)]; rfl

/-- A committed byte leads where the two right-hand columns of R93 say. -/
theorem commitByte_bst (b : Byte) (s : State) : (commitByte b s).bus.bst = bstAfterByte s b := by
  cases hb : s.bus.bst with
  | idle => rw [commitByte_idle hb, bstAfterByte, hb]
  | started =>
    rw [commitByte_ok (i := .addr (addrField b) (b.getLsbD 0)) (by rw [hb]; rfl), bstAfterByte, hb]
    have hfield : (addrField b).toNat = b.toNat / 2 := by
      rw [addrField_eq_ofNat, BitVec.toNat_ofNat, Nat.mod_eq_of_lt (by omega)]
    simp only [runByte, commitAddress, addrMatch, beq_iff_eq, ← BitVec.toNat_inj, hfield]
    split <;> rfl
  | addressPhase =>
    rw [commitByte, bstAfterByte, hb, decodeByte, decodeControl]
    by_cases hcmd : b = 0x00
    · simp only [if_pos hcmd]; rfl
    by_cases hdata : b = 0x40
    · simp only [if_neg hcmd, if_pos hdata]; rfl
    · simp only [if_neg hcmd, if_neg hdata]; rfl
  | commandPhase =>
    rw [commitByte_command hb, bstAfterByte, hb]
    cases hp : s.disp.pend with
    | contrast | skip => simpa [decodeCommand, runByte, paramContrast, setPend] using hb
    | memMode => simpa [hb, decodeCommand, runByte] using paramMemMode_bst b s
    | none => simpa [hb, decodeCommand] using runByte_decodeOpcode_bst b s
  | dataPhase =>
    rw [commitByte_data hb, bstAfterByte, hb]
    exact hb

/-! ### Where an event leads -/

theorem isStart_iff {s : State} {e : Event} :
    isStart s e = true ↔ e = .sdaEdge false ∧ s.ready = true ∧ s.bus.scl = true ∧ s.bus.sda = true := by
  unfold isStart
  split
  · simp [and_assoc]
  · rename_i hne; exact iff_of_false nofun fun h => hne h.1

theorem isStop_iff {s : State} {e : Event} :
    isStop s e = true ↔ e = .sdaEdge true ∧ s.ready = true ∧ s.bus.scl = true ∧ s.bus.sda = false := by
  unfold isStop
  split
  · simp [and_assoc]
  · rename_i hne; exact iff_of_false nofun fun h => hne h.1

theorem dataEdge_bst_of_neither {s : State} {l : Bool} (hr : s.ready = true) (hstart : isStart s (.sdaEdge l) ≠ true)
    (hstop : isStop s (.sdaEdge l) ≠ true) : (dataEdge l s).bus.bst = s.bus.bst := by
  rw [dataEdge_of_neither]
  · rfl
  · rintro ⟨hscl, hsda, rfl⟩
    exact hstart (isStart_iff.mpr ⟨rfl, hr, hscl, hsda⟩)
  · rintro ⟨hscl, hsda, rfl⟩
    exact hstop (isStop_iff.mpr ⟨rfl, hr, hscl, hsda⟩)

/-- Beside `Setup`, an event that is neither a start nor a stop and commits no byte keeps the transaction state. -/
theorem deliver_bst_of_kept {s : State} {e : Event} (he : e ≠ .setup) (hstart : isStart s e ≠ true) (hstop : isStop s e ≠ true)
    (hc : committed s e = none) : (deliver s e).bus.bst = s.bus.bst := by
  have hgate {falsy : Option Result} {f : State → State} (hf : s.ready = true → (f s).bus.bst = s.bus.bst) :
      (gate falsy f s).bus.bst = s.bus.bst := by
    cases hr : s.ready
    · rw [gate_of_not_ready hr, preconditionViolation_bus]
    · rw [gate_of_ready hr, hf hr]
  cases e with
  | setup => exact absurd rfl he
  | teardown => rfl
  | sclEdge l => obtain ⟨_, _, _, hframe⟩ := deliver_sclEdge_of_not_committed hc; rw [hframe]
  | sdaEdge l => exact hgate fun hr => dataEdge_bst_of_neither hr hstart hstop
  | regWrite reg v =>
    cases reg with
    | data => exact hgate fun _ => rfl
    | status => rw [deliver_regWriteStatus_of_not_committed hc]
    | other n => rfl
  | setRefreshTiming r => exact hgate fun _ => rfl
  | frameTick target => exact hgate fun _ => by rw [frameTick_bus]
  | toggleEdge l now => exact hgate fun _ => rfl
  | sampleTick => exact hgate fun _ => rfl
  | readAudio target => exact hgate fun _ => by rw [(readAll_actsOnAudioSide target).bus s]

/-- Every event leads where the table of R93 says. -/
theorem deliver_bst (s : State) (e : Event) : (deliver s e).bus.bst = bstAfter s e := by
  unfold bstAfter
  by_cases he : e = .setup
  · subst he; rfl
  rw [if_neg he]
  by_cases hstart : isStart s e = true
  · rw [if_pos hstart]
    obtain ⟨rfl, hr, hscl, hsda⟩ := isStart_iff.mp hstart
    rw [deliver, gate_of_ready hr, dataEdge_of_start ⟨hscl, hsda, rfl⟩]
    rfl
  rw [if_neg hstart]
  by_cases hstop : isStop s e = true
  · rw [if_pos hstop]
    obtain ⟨rfl, hr, hscl, hsda⟩ := isStop_iff.mp hstop
    rw [deliver_stop hr hscl hsda]
    rfl
  rw [if_neg hstop]
  cases hc : committed s e with
  | some b => exact (deliver_bst_of_committed hc).trans (commitByte_bst b s)
  | none => exact deliver_bst_of_kept he hstart hstop hc

end Sys2Proof.Machine

/-! ### The statements -/

namespace Sys2Proof.Proofs

open Sys2Proof.Machine

/-- Settles O6: with eight bits in, the rise of the clock is a commit of the accumulator. -/
theorem ninthPulseStepRunsTheByte : Obligations.NinthPulseStepRunsTheByte := by
  intro s rest i hin hr hscl hbst hcnt hdecode
  have hcommit := (gate_of_ready (s := s.setInput rest) hr none (clockEdge true)).trans
    (clockEdge_of_ninthPulse hscl hbst hcnt)
  exact step_of_commit hin hcommit hdecode

/-- Settles O7: the write of the sentinel is a commit of the latch. -/
theorem sentinelStepRunsTheLatchedByte : Obligations.SentinelStepRunsTheLatchedByte := by
  intro s rest i hin hr hdecode
  have hcommit := (gate_of_ready (s := s.setInput rest) hr none (writeStatus s.cfg.srSentinel)).trans
    (writeStatus_of_sentinel (s.setInput rest))
  exact step_of_commit hin hcommit hdecode

/-- Settles O22: a step is the delivery of its event, and `deliver_bst` follows the table by the event's cause: `Setup`, a start, a
stop, a committed byte, or none of them. -/
theorem busStateFollowsTheTransitionTable : Obligations.BusStateFollowsTheTransitionTable := by
  intro s t e rest hin hstep
  obtain rfl := eq_of_step_cons hin hstep
  exact deliver_bst s e

/-- Settles O14: no rise, or a rise in one of its three cases. -/
theorem clockEdgeSamplesOrCommits : Obligations.ClockEdgeSamplesOrCommits := by
  intro s level hr
  refine congrArg Host.Outcome.next ((gate_of_ready hr none (clockEdge level)).trans ?_)
  by_cases hrise : s.bus.scl = false ∧ level = true
  · obtain ⟨hscl, rfl⟩ := hrise
    by_cases hbst : s.bus.bst = .idle
    · rw [if_neg (fun h => h.2.2 hbst), clockEdge_of_rise hscl, clockRise_of_idle (s := s.setBus (s.bus.setScl true)) hbst]
      rfl
    rw [if_pos ⟨hscl, rfl, hbst⟩]
    by_cases hcnt : s.bus.cnt < 8
    · rw [if_pos hcnt, clockEdge_of_rise hscl, clockRise_of_lt (s := s.setBus (s.bus.setScl true)) hbst hcnt]
      rfl
    · rw [if_neg hcnt, clockEdge_of_ninthPulse hscl hbst (Nat.not_lt.mp hcnt)]
  · rw [if_neg (fun h => hrise ⟨h.1, h.2.1⟩), clockEdge_of_not_rise hrise]
    rfl

/-- Settles O15: the gate is open and the edge is a start. -/
theorem startConditionFromAnyState : Obligations.StartConditionFromAnyState :=
  fun _ hr hscl hsda => congrArg Host.Outcome.next
    ((gate_of_ready hr none (dataEdge false)).trans (dataEdge_of_start ⟨hscl, hsda, rfl⟩))

/-- Settles O16: the gate is open, and the edge is a stop, or neither a start nor a stop. -/
theorem stopAndPlainDataEdges : Obligations.StopAndPlainDataEdges := by
  intro s level hr
  have hexec (l : Bool) : exec (.sdaEdge l) s = .next (dataEdge l s) :=
    congrArg Host.Outcome.next (gate_of_ready hr none (dataEdge l))
  refine ⟨fun hscl hsda => ?_, fun hplain => ?_⟩
  · rw [hexec, dataEdge_of_stop (l := true) nofun ⟨hscl, hsda, rfl⟩]; rfl
  · rw [hexec, dataEdge_of_neither]
    · rfl
    · rintro ⟨hscl, hsda, rfl⟩; simp [hscl, hsda] at hplain
    · rintro ⟨hscl, hsda, rfl⟩; simp [hscl, hsda] at hplain

end Sys2Proof.Proofs

/-! SUPPORT. The statements of `41_display_commands.md`: a byte committed in CommandPhase is the command that `decodeCommand` reads
under the pending parameter, and each command's one write. -/

namespace Sys2Proof.Machine

/-- A byte committed in CommandPhase runs as the command it decodes to under the pending parameter (R100). -/
theorem exec_decodeCommand {s : State} {p : Pending} (hbst : s.bus.bst = .commandPhase) (hpend : s.disp.pend = p) (b : Byte) :
    exec (decodeCommand s.cfg.extCmds p b) s = .next (commitByte b s) :=
  exec_of_decodeByte (by rw [hbst, hpend]; rfl)

end Sys2Proof.Machine

/-! ### The statements -/

namespace Sys2Proof.Proofs

open Sys2Proof.Machine

/-- Settles O33: `decodeCommand` by its four cases; the skipped parameter is stated by the state it leaves, not by its row. -/
theorem pendingParameterTakesTheNextByte : Obligations.PendingParameterTakesTheNextByte := by
  intro s b hbst
  refine ⟨fun hp => exec_decodeCommand hbst hp b, fun hp => exec_decodeCommand hbst hp b, fun hp => ?_,
    fun hp => exec_decodeCommand hbst hp b⟩
  rw [commitByte_command hbst, hp]
  rfl

/-- Settles O35: a level committed while `pend` = Contrast is the contrast parameter, whatever its value. -/
theorem contrastParameterSetsTheLevel : Obligations.ContrastParameterSetsTheLevel := by
  intro s v
  refine ⟨rfl, fun hbst hp => ?_⟩
  rw [commitByte_command hbst, hp]
  rfl

/-- Settles O37: each row is one named update of one register of DISPLAY. -/
theorem oneRegisterCommandsWriteTheirRegisterOnly : Obligations.OneRegisterCommandsWriteTheirRegisterOnly :=
  fun _ => ⟨fun _ => rfl, rfl, rfl, rfl, rfl, rfl, rfl, rfl, rfl, rfl, rfl⟩

/-- Settles O38: an unknown opcode is a desync, an extra command sets `pend` by its flag, and the skipped parameter clears it. -/
theorem unknownAndExtraCommands : Obligations.UnknownAndExtraCommands :=
  fun _ _ => ⟨rfl, rfl, rfl, rfl⟩

end Sys2Proof.Proofs

/-! SUPPORT. The statements of `42_display_data_render.md`: the cursor law of data bytes, the two display events, and a byte's way
through the framebuffer and the grid to the pixels. -/

namespace Sys2Proof.Machine

/-! ### The cursor (R131) -/

/-- A seven-bit column that wraps at 127 is a column that wraps by its width. -/
theorem advanceCursor_col (d : Display) : (advanceCursor d).col = d.col + 1 := by
  rw [advanceCursor_eq]
  show (if d.col = 127 then 0 else d.col + 1) = d.col + 1
  split
  · rename_i h; rw [h]; rfl
  · rfl

/-- The page advances with a wrap of the column in Horizontal mode, and likewise wraps by its width. -/
theorem advanceCursor_page (d : Display) :
    (advanceCursor d).page = if d.col = 127 ∧ d.mode = .horizontal then d.page + 1 else d.page := by
  rw [advanceCursor_eq]
  show (if d.col = 127 ∧ d.mode = .horizontal then (if d.page = 7 then 0 else d.page + 1) else d.page) = _
  by_cases h : d.page = 7
  · rw [if_pos h, h]; rfl
  · rw [if_neg h]

@[simp] theorem dataByte_mode (b : Byte) (s : State) : (dataByte b s).disp.mode = s.disp.mode := by
  show (advanceCursor (storeStrip b s.disp)).mode = _
  rw [advanceCursor_eq]; rfl

@[simp] theorem dataByte_col (b : Byte) (s : State) : (dataByte b s).disp.col = s.disp.col + 1 := advanceCursor_col _

theorem dataByte_page (b : Byte) (s : State) :
    (dataByte b s).disp.page = if s.disp.col = 127 ∧ s.disp.mode = .horizontal then s.disp.page + 1 else s.disp.page :=
  advanceCursor_page _

/-- One data byte takes the linear position one forward in Horizontal mode. -/
theorem cursorPosition_dataByte {s : State} (h : s.disp.mode = .horizontal) (b : Byte) :
    cursorPosition (dataByte b s) = (cursorPosition s + 1) % 1024 := by
  rw [cursorPosition, dataByte_col, dataByte_page, cursorPosition]
  by_cases hcol : s.disp.col = 127
  · rw [if_pos ⟨hcol, h⟩]; bv_omega
  · rw [if_neg fun hwrap => hcol hwrap.1]; bv_omega

theorem dataByte_page_of_page {s : State} (h : s.disp.mode = .page) (b : Byte) : (dataByte b s).disp.page = s.disp.page := by
  simp [dataByte_page, h]

/-! ### The frame tick (R134) -/

theorem frameTick_of_short {target : List Pixel} (h : target.length < 8192) (s : State) :
    frameTick target s = s.addResult (.frame false target) := if_pos h

theorem frameTick_of_long {target : List Pixel} (h : 8192 ≤ target.length) (s : State) :
    frameTick target s = (s.setDisp (frameFlush s.disp)).addResult (.frame true (render (frameFlush s.disp) target)) :=
  if_neg (Nat.not_lt.mpr h)

theorem exec_frameTick_of_ready {s : State} (hr : s.ready = true) (target : List Pixel) :
    exec (.frameTick target) s = .next (frameTick target s) := congrArg Host.Outcome.next (gate_of_ready hr _ _)

theorem frameFlush_of_not_round {d : Display} (h : d.round = false) : frameFlush d = flush d := by simp [frameFlush, h]

/-! ### From the framebuffer to the pixels (R132, R135) -/

/-- With neither inversion nor mirroring, a pixel rendered after a flush shows its bit of the framebuffer. -/
theorem renderPixel_flush_of_plain {d : Display} (hinv : d.inv = false) (hseg : d.segremap = false) (hscan : d.scandir = false)
    {y x : Nat} (hy : y < 64) (hx : x < 128) :
    renderPixel (flush d) y x =
      if (fbByte d (y / 8) x).getLsbD (y % 8) = true then BitVec.ofNat 32 (0xFF000000 + (128 + d.contrast.toNat / 2) * 0x10101)
      else transparent := by
  have hbit : (gridBit (flush d) (sourceRow d.scandir y) (sourceCol d.segremap x) != d.inv) =
      (fbByte d (y / 8) x).getLsbD (y % 8) := by
    rw [hinv, hseg, hscan, Bool.bne_false]
    exact gridBit_flush d hy hx
  rw [← hbit]
  exact renderPixel_eq (flush d) y x

/-- Stored in an empty framebuffer, a byte stands at the cursor, and every other strip is clear. -/
theorem fbByte_dataByte_of_empty {s : State} (h : s.disp.fb = []) (b : Byte) {p x : Nat} (hx : x < 128) :
    fbByte (dataByte b s).disp p x = if x = s.disp.col.toNat ∧ p = s.disp.page.toNat then b else 0 := by
  have hfb : (dataByte b s).disp.fb = Memory.write [] (fbAddress s.disp.page s.disp.col) b := by
    rw [← h]; exact congrArg Display.fb (advanceCursor_eq _)
  have haddr : p * fbCols + x = fbAddress s.disp.page s.disp.col ↔ x = s.disp.col.toNat ∧ p = s.disp.page.toNat := by
    have hcol := s.disp.col.isLt
    simp only [fbAddress, fbCols]; omega
  rw [fbByte, hfb, Memory.read_write Memory.wf_nil, Memory.read_nil]
  exact if_congr haddr rfl rfl

/-- A data byte leaves every register that a picture is flushed or rendered by (R130). -/
theorem dataByte_render_registers (b : Byte) (s : State) :
    (dataByte b s).disp.on = s.disp.on ∧ (dataByte b s).disp.inv = s.disp.inv ∧
      (dataByte b s).disp.segremap = s.disp.segremap ∧ (dataByte b s).disp.scandir = s.disp.scandir ∧
      (dataByte b s).disp.round = s.disp.round ∧ (dataByte b s).disp.contrast = s.disp.contrast := by
  have hdisp : (dataByte b s).disp = advanceCursor (storeStrip b s.disp) := rfl
  rw [hdisp, advanceCursor_eq]
  exact ⟨rfl, rfl, rfl, rfl, rfl, rfl⟩

end Sys2Proof.Machine

/-! ### The statements -/

namespace Sys2Proof.Proofs

open Sys2Proof.Machine

/-- Settles O42: by induction over the bytes, each one step of the cursor in its mode, which no byte changes. -/
theorem cursorLawOfDataBytes : Obligations.CursorLawOfDataBytes := by
  intro ds
  induction ds with
  | nil =>
    intro s
    have hpos : cursorPosition s < 1024 := fbAddress_lt s.disp.page s.disp.col
    exact ⟨s, rfl, fun _ => (Nat.mod_eq_of_lt hpos).symm, fun _ => ⟨rfl, (Nat.mod_eq_of_lt s.disp.col.isLt).symm⟩⟩
  | cons b ds ih =>
    intro s
    obtain ⟨t, hrun, hhorizontal, hpage⟩ := ih (dataByte b s)
    rw [dataByte_mode] at hhorizontal hpage
    refine ⟨t, hrun, fun hmode => ?_, fun hmode => ?_⟩
    · rw [hhorizontal hmode, cursorPosition_dataByte hmode, List.length_cons]; omega
    · obtain ⟨hp, hc⟩ := hpage hmode
      refine ⟨hp.trans (dataByte_page_of_page hmode b), ?_⟩
      rw [hc, dataByte_col, List.length_cons]; bv_omega

/-- Settles O45: the gate is open and `round` is written, or it is shut and the call is a violated precondition. -/
theorem setRefreshTimingWritesRoundOnly : Obligations.SetRefreshTimingWritesRoundOnly :=
  fun _ _ => ⟨fun hr => congrArg Host.Outcome.next (gate_of_ready hr _ _),
    fun hr => congrArg Host.Outcome.next (gate_of_not_ready hr _ _)⟩

/-- Settles O46: the gate is open, and the target's length decides between the frame and the violated precondition. -/
theorem frameTickFlushesAndRenders : Obligations.FrameTickFlushesAndRenders := by
  intro s target hr
  rw [exec_frameTick_of_ready hr]
  exact ⟨fun hlong => congrArg Host.Outcome.next (frameTick_of_long hlong s),
    fun hshort => congrArg Host.Outcome.next (frameTick_of_short hshort s)⟩

/-- Settles O48: the byte is the framebuffer's only strip, the tick flushes it into the grid, and each pixel shows its bit. What the
grid held before takes no part, since the flush rebuilds it whole. -/
theorem dataByteRoundTripsToPixels : Obligations.DataByteRoundTripsToPixels := by
  intro s b target hr hfb _ hon hinv hseg hscan hround hlen
  obtain ⟨hon', hinv', hseg', hscan', hround', hcontrast⟩ := dataByte_render_registers b s
  have htick := frameTick_of_long hlen (dataByte b s)
  rw [frameFlush_of_not_round (hround'.trans hround)] at htick
  refine ⟨frameTick target (dataByte b s), render (flush (dataByte b s).disp) target, ?_, congrArg State.results htick,
    fun y hy x hx => ?_⟩
  · show runInstrs [.frameTick target] (dataByte b s) = _
    rw [runInstrs, exec_frameTick_of_ready (s := dataByte b s) hr]
    rfl
  rw [getElem?_render_pixel (d := flush (dataByte b s).disp) (hon'.trans hon) target hy hx,
    renderPixel_flush_of_plain (hinv'.trans hinv) (hseg'.trans hseg) (hscan'.trans hscan) hy hx,
    fbByte_dataByte_of_empty hfb b hx, hcontrast]
  by_cases hcursor : x = s.disp.col.toNat ∧ y / 8 = s.disp.page.toNat
  · rw [if_pos hcursor]
    simp only [hcursor, true_and]
    rfl
  · rw [if_neg hcursor, if_neg (by simp), if_neg fun h => hcursor ⟨h.1, h.2.1⟩]
    rfl

end Sys2Proof.Proofs

/-! SUPPORT. The statements of `43_audio.md`: a timely and an untimely toggle event, a tick with and without a sample, and the window
that is high for its first half. -/

namespace Sys2Proof.Machine

/-! ### The toggle event (R150) -/

theorem exec_toggleEdge_of_ready {s : State} (hr : s.ready = true) (level : Bool) (now : Cycle) :
    exec (.toggleEdge level now) s = .next (toggle level now s) := congrArg Host.Outcome.next (gate_of_ready hr _ _)

theorem toggle_ready (level : Bool) (now : Cycle) (s : State) : (toggle level now s).ready = s.ready := rfl

theorem toNat_add_elapsed {a tlast now : Cycle} (hnow : tlast.toNat ≤ now.toNat)
    (hsum : a.toNat + (now.toNat - tlast.toNat) < 2 ^ 64) :
    (a + (now - tlast)).toNat = a.toNat + (now.toNat - tlast.toNat) := by
  rw [BitVec.toNat_add, BitVec.toNat_sub_of_le hnow, Nat.mod_eq_of_lt hsum]

theorem cycleSum_of_timely {a tlast now : Cycle} (hnow : tlast.toNat ≤ now.toNat)
    (hsum : a.toNat + (now.toNat - tlast.toNat) < 2 ^ 64) :
    cycleSum a (elapsed tlast now) = some (a + (now - tlast)) := by
  rw [elapsed, if_pos hnow, cycleSum, if_pos hsum, ← toNat_add_elapsed hnow hsum, BitVec.ofNat_toNat, BitVec.setWidth_eq]

theorem cycleSum_of_untimely {tlast now : Cycle} (hnow : now.toNat < tlast.toNat) (a : Cycle) :
    cycleSum a (elapsed tlast now) = none := by
  rw [elapsed, if_neg (Nat.not_le.mpr hnow), cycleSum]

/-- The state with another line level, time and totals: what a toggle event writes. -/
def State.withWindow (s : State) (tog : Bool) (tlast tot high : Cycle) : State :=
  { s with audio := { s.audio with tog := tog, tlast := tlast, tot := tot, high := high } }

/-- A timely toggle event credits the interval to the level that the line had, and draws no free value (R150, R151). -/
theorem toggle_of_timely {s : State} {now : Cycle} (hnow : s.audio.tlast.toNat ≤ now.toNat)
    (htot : s.audio.tot.toNat + (now.toNat - s.audio.tlast.toNat) < 2 ^ 64)
    (hhigh : s.audio.high.toNat + (now.toNat - s.audio.tlast.toNat) < 2 ^ 64) (level : Bool) :
    toggle level now s = s.withWindow level now (s.audio.tot + (now - s.audio.tlast))
      (if s.audio.tog then s.audio.high + (now - s.audio.tlast) else s.audio.high) := by
  have hdraws : toggleDraws s.audio now = false := by
    simp [toggleDraws, cycleSum_of_timely hnow htot, cycleSum_of_timely hnow hhigh]
  rw [toggle, hdraws, totAfter, highAfter, cycleSum_of_timely hnow htot, cycleSum_of_timely hnow hhigh]
  rfl

/-- An untimely toggle event draws its totals: U8 leaves them open. -/
theorem toggle_of_untimely {s : State} {now : Cycle} (hnow : now.toNat < s.audio.tlast.toNat) (level : Bool) :
    toggle level now s = (s.withWindow level now (Config.freeTot s.fresh)
      (if s.audio.tog then Config.freeHigh s.fresh else s.audio.high)).setFresh (s.fresh + 1) := by
  have hdraws : toggleDraws s.audio now = true := by simp [toggleDraws, cycleSum_of_untimely hnow]
  rw [toggle, hdraws, totAfter, highAfter, cycleSum_of_untimely hnow, cycleSum_of_untimely hnow]
  rfl

/-! ### The sample tick (R153) -/

theorem exec_sampleTick_of_ready {s : State} (hr : s.ready = true) : exec .sampleTick s = .next (tick s) :=
  congrArg Host.Outcome.next (gate_of_ready hr _ _)

theorem bufferAfterTick_of_empty {a : Audio} (h : a.tot = 0) (cfg : Config) (fresh : Nat) :
    bufferAfterTick cfg a fresh = a.abuf := if_pos h

theorem bufferAfterTick_of_full {a : Audio} (h : 2048 ≤ a.abuf.length) (cfg : Config) (fresh : Nat) :
    bufferAfterTick cfg a fresh = a.abuf := by
  have hfull : ¬ a.abuf.length < audioCap := Nat.not_lt.mpr h
  rw [bufferAfterTick, if_neg hfull, ite_self]

theorem bufferAfterTick_of_room {a : Audio} (htot : a.tot ≠ 0) (hroom : a.abuf.length < 2048) (cfg : Config) (fresh : Nat) :
    bufferAfterTick cfg a fresh = a.abuf ++ [sampleByte cfg a fresh] := (if_neg htot).trans (if_pos hroom)

/-- Under the premise of R4 the formula fits a byte, so that the tick draws no free value. -/
theorem sampleDraws_of_high_le_tot {cfg : Config} {a : Audio} (hcfg : cfg.audioBase.toNat + cfg.audioAmp.toNat ≤ 255)
    (h : a.high.toNat ≤ a.tot.toNat) : sampleDraws cfg a = false := by
  have hle : sampleValue cfg a.high a.tot ≤ 255 := (sampleValue_le cfg h).trans hcfg
  simp [sampleDraws, Nat.lt_succ_of_le hle]

/-- A tick on an empty window clears the accumulators and draws nothing (R155). -/
theorem tick_of_empty {s : State} (h : s.audio.tot = 0) :
    tick s = { s with audio := { s.audio with tot := 0, high := 0 } } := by
  have hdraws : sampleDraws s.cfg s.audio = false := by simp [sampleDraws, h]
  rw [tick, hdraws, bufferAfterTick_of_empty h]
  rfl

/-- A tick with cycles in the window and room in the buffer appends the window's sample (R153, R154). -/
theorem tick_of_room {s : State} (hcfg : s.cfg.audioBase.toNat + s.cfg.audioAmp.toNat ≤ 255) (htot : 0 < s.audio.tot.toNat)
    (hhigh : s.audio.high.toNat ≤ s.audio.tot.toNat) (hroom : s.audio.abuf.length < 2048) :
    ∃ b : Byte, b.toNat = sampleValue s.cfg s.audio.high s.audio.tot ∧
      tick s = { s with audio := { s.audio with tot := 0, high := 0, abuf := s.audio.abuf ++ [b] } } := by
  have hcycles : s.audio.tot ≠ 0 := fun h => by simp [h] at htot
  refine ⟨sampleByte s.cfg s.audio s.fresh, toNat_sampleByte hcfg hhigh s.fresh, ?_⟩
  rw [tick, sampleDraws_of_high_le_tot hcfg hhigh, bufferAfterTick_of_room hcycles hroom]
  rfl

/-! ### The half window (R158) -/

/-- The line goes high at the start of a window, low within it, and high again at its end: the whole window is counted, and its first
part as high. What the line was before the window takes no part, since no cycles had passed. -/
theorem toggle_window {s : State} {t1 t2 : Cycle} (htot : s.audio.tot = 0) (hhigh : s.audio.high = 0)
    (h1 : s.audio.tlast.toNat ≤ t1.toNat) (h2 : t1.toNat ≤ t2.toNat) :
    toggle true t2 (toggle false t1 (toggle true s.audio.tlast s)) =
      s.withWindow true t2 (t2 - s.audio.tlast) (t1 - s.audio.tlast) := by
  have hstart : toggle true s.audio.tlast s = s.withWindow true s.audio.tlast 0 0 := by
    rw [toggle_of_timely (Nat.le_refl _) (by omega) (by omega)]
    simp [htot, hhigh]
  have hmiddle : toggle false t1 (s.withWindow true s.audio.tlast 0 0) =
      s.withWindow false t1 (t1 - s.audio.tlast) (t1 - s.audio.tlast) := by
    have hzero : (0 : Cycle).toNat + (t1.toNat - s.audio.tlast.toNat) < 2 ^ 64 := by bv_omega
    rw [toggle_of_timely (s := s.withWindow true s.audio.tlast 0 0) h1 hzero hzero]
    simp [State.withWindow]
  have hend : (t1 - s.audio.tlast).toNat + (t2.toNat - t1.toNat) < 2 ^ 64 := by bv_omega
  rw [hstart, hmiddle, toggle_of_timely (s := s.withWindow false t1 (t1 - s.audio.tlast) (t1 - s.audio.tlast)) h2 hend hend]
  simp [State.withWindow, sub_add_sub_cancel']

/-- Half of a window's cycles give half of the amplitude, rounded down (R154, D21). -/
theorem sampleValue_half {high tot : Cycle} {w : Nat} (hw : 0 < w) (hhigh : high.toNat = w) (htot : tot.toNat = 2 * w)
    (cfg : Config) : sampleValue cfg high tot = cfg.audioBase.toNat + cfg.audioAmp.toNat / 2 := by
  rw [sampleValue, hhigh, htot, Nat.mul_comm 2 w, Nat.mul_div_mul_left _ _ hw]

end Sys2Proof.Machine

/-! ### The statements -/

namespace Sys2Proof.Proofs

open Sys2Proof.Machine

/-- Settles O54: the three toggle events leave `2 * w` cycles in the window, `w` of them high, and the tick samples them. -/
theorem halfWindowGivesHalfAmplitude : Obligations.HalfWindowGivesHalfAmplitude := by
  rintro s t0 t1 t2 w hr hw rfl htot hhigh h1 h2 hcfg hroom
  have hfirst : (t1 - s.audio.tlast).toNat = w := by bv_omega
  have hwhole : (t2 - s.audio.tlast).toNat = 2 * w := by bv_omega
  have hcycles : 0 < (t2 - s.audio.tlast).toNat := by omega
  have hpart : (t1 - s.audio.tlast).toNat ≤ (t2 - s.audio.tlast).toNat := by omega
  have htoggles := toggle_window htot hhigh (t1 := t1) (t2 := t2) (by omega) (by omega)
  obtain ⟨b, hb, htick⟩ :=
    tick_of_room (s := s.withWindow true t2 (t2 - s.audio.tlast) (t1 - s.audio.tlast)) hcfg hcycles hpart hroom
  refine ⟨b, hb.trans (sampleValue_half hw hfirst hwhole s.cfg), ?_⟩
  have hrun : runInstrs [.toggleEdge true s.audio.tlast, .toggleEdge false t1, .toggleEdge true t2, .sampleTick] s =
      .next (tick (toggle true t2 (toggle false t1 (toggle true s.audio.tlast s)))) := by
    simp only [runInstrs, exec_toggleEdge_of_ready, exec_sampleTick_of_ready, toggle_ready, hr]
  rw [hrun, htoggles]
  exact congrArg Host.Outcome.next htick

/-- Settles O49: neither sum wraps, so that word addition is the exact one. -/
theorem toggleAccumulatesTheInterval : Obligations.ToggleAccumulatesTheInterval := by
  intro s level now hr hnow htot hhigh
  refine ⟨_, _, toNat_add_elapsed hnow htot, ?_,
    (exec_toggleEdge_of_ready hr level now).trans (congrArg Host.Outcome.next (toggle_of_timely hnow htot hhigh level))⟩
  rw [apply_ite BitVec.toNat, toNat_add_elapsed hnow hhigh]

/-- Settles O50: both totals are the values drawn, but for `high` after a low interval. -/
theorem untimelyToggleCompletes : Obligations.UntimelyToggleCompletes := by
  intro s level now hr hnow
  refine ⟨_, _,
    (exec_toggleEdge_of_ready hr level now).trans (congrArg Host.Outcome.next (toggle_of_untimely hnow level)), fun hlow => ?_⟩
  rw [hlow]; rfl

/-- Settles O51: with `high` within `tot` the sample is the formula's value, between base and base plus amplitude. -/
theorem sampleTickAppendsTheSample : Obligations.SampleTickAppendsTheSample := by
  intro s hr htot hhigh hcfg hroom
  obtain ⟨b, hb, htick⟩ := tick_of_room hcfg htot hhigh hroom
  refine ⟨b, hb, ?_, ?_, (exec_sampleTick_of_ready hr).trans (congrArg Host.Outcome.next htick)⟩
  · rw [hb]; exact Nat.le_add_right ..
  · rw [hb]; exact sampleValue_le s.cfg hhigh

/-- Settles O52: in both cases the buffer after the tick is the one before it. -/
theorem emptyWindowsAndFullBuffersAppendNothing : Obligations.EmptyWindowsAndFullBuffersAppendNothing := by
  intro s hr
  rw [exec_sampleTick_of_ready hr]
  refine ⟨fun hempty => by rw [tick_of_empty hempty], fun _ hfull => ⟨(tick s).fresh, ?_⟩⟩
  rw [tick, bufferAfterTick_of_full hfull]
  rfl

end Sys2Proof.Proofs

/-! SUPPORT. The statements of `60_exceptions.md`: what every event does behind the shut gate, bytes on the wire with no transaction
active, and the causes of a desync. -/

namespace Sys2Proof.Machine

/-! ### Behind the shut gate (R177) -/

/-- The false or zero result an event gives back when it is refused, with the caller's buffer untouched; none for an event without a
result (R173). -/
def falsyResult : Event → Option Result
  | .setRefreshTiming _ => some (.timing false)
  | .frameTick target => some (.frame false target)
  | .readAudio target => some (.audio 0 target)
  | _ => none

theorem preconditionViolation_eq (falsy : Option Result) (s : State) :
    preconditionViolation falsy s = s.setResults (s.results ++ falsy.toList) := by
  cases falsy with
  | none => simp [State.setResults]
  | some r => rfl

/-- While `ready` = 0 every event but `Setup` is a violated precondition. -/
theorem deliver_of_not_ready {s : State} (hr : s.ready = false) {e : Event} (he : e ≠ .setup) :
    deliver s e = preconditionViolation (falsyResult e) s := by
  cases e with
  | setup => exact absurd rfl he
  | teardown =>
    show s.setReady false = s
    rw [← hr]; rfl
  | regWrite reg v =>
    cases reg with
    | data | status => exact gate_of_not_ready hr none _
    | other n => rfl
  | _ => exact gate_of_not_ready hr _ _

/-- `deliver_of_not_ready` for the row of an event. -/
theorem exec_of_not_ready {s : State} (hr : s.ready = false) {e : Event} (he : e ≠ .setup) {i : Instr}
    (hi : decodeEvent e = .ok i) : exec i s = .next (preconditionViolation (falsyResult e) s) := by
  rw [exec_of_decodeEvent hi, deliver_of_not_ready hr he]

/-- While `ready` = 0 events without `Setup` add the refusal of each to the results, in order, and do nothing else. -/
theorem deliverAll_of_not_ready {es : List Event} {s : State} (hr : s.ready = false) (hes : .setup ∉ es) :
    deliverAll es s = s.setResults (s.results ++ es.filterMap falsyResult) := by
  induction es generalizing s with
  | nil => rw [List.filterMap_nil, List.append_nil]; rfl
  | cons e es ih =>
    obtain ⟨he, hes⟩ := not_or.mp (mt List.mem_cons.mpr hes)
    have htail := ih (s := s.setResults (s.results ++ (falsyResult e).toList)) hr hes
    rw [State.setResults_results, List.append_assoc] at htail
    rw [deliverAll_cons, deliver_of_not_ready hr (Ne.symm he), preconditionViolation_eq, htail,
      List.filterMap_eq_flatMap_toList, List.filterMap_eq_flatMap_toList, List.flatMap_cons]
    rfl

theorem eq_of_falsyResult {e : Event} {r : Result} (h : falsyResult e = some r) :
    r = .timing false ∨ (∃ target, r = .frame false target ∧ e = .frameTick target) ∨
      ∃ target, r = .audio 0 target ∧ e = .readAudio target := by
  cases e with
  | setRefreshTiming roundMode => cases h; exact .inl rfl
  | frameTick target => cases h; exact .inr (.inl ⟨target, rfl, rfl⟩)
  | readAudio target => cases h; exact .inr (.inr ⟨target, rfl, rfl⟩)
  | _ => cases h

/-- A row of the events decodes from the event it is written as (R5, R74). -/
theorem exists_decodeEvent_of_kind_event {i : Instr} (h : i.kind = .event) : ∃ e, decodeEvent e = .ok i := by
  have hdecode := decodeEncoding_encode_event h Config.standard []
  cases henc : encode Config.standard i with
  | event e =>
    rw [henc] at hdecode
    exact ⟨e, hdecode⟩
  | byte bst pend b =>
    rw [henc] at hdecode
    have hbyte := kind_of_decodeByte hdecode
    rw [h] at hbyte
    cases hbyte
  | script es =>
    rw [henc] at hdecode
    cases hdecode

/-! ### Bytes one after another (R76) -/

/-- Bytes of the script one after another are their bits on the lines. -/
theorem runInstrs_bytes (bs : List Byte) (s : State) :
    runInstrs (bs.map .byte) s = .next (deliverAll ((bs.flatMap fun v => byteLevels v ++ [true]).flatMap bitEvents) s) := by
  induction bs generalizing s with
  | nil => rfl
  | cons b bs ih =>
    rw [List.flatMap_cons, List.flatMap_append, deliverAll_append, ← byteEvents_eq]
    exact ih (deliverAll (byteEvents b) s)

end Sys2Proof.Machine

/-! ### The statements -/

namespace Sys2Proof.Proofs

open Sys2Proof.Machine

/-- Settles O13: the run delivers the events, each of which adds at most its refusal to the results. -/
theorem nothingMovesUntilSetup : Obligations.NothingMovesUntilSetup := by
  intro es rest s hr hin hes
  refine ⟨es.filterMap falsyResult, ?_, fun r hmem => ?_⟩
  · rw [run_deliverAll es rest hin, deliverAll_of_not_ready hr hes]; rfl
  · obtain ⟨e, he, hfalsy⟩ := List.mem_filterMap.mp hmem
    obtain htiming | ⟨target, hframe, rfl⟩ | ⟨target, haudio, rfl⟩ := eq_of_falsyResult hfalsy
    · exact .inl htiming
    · exact .inr (.inl ⟨target, hframe, he⟩)
    · exact .inr (.inr ⟨target, haudio, he⟩)

/-- Settles O32: bytes are bits on the lines, and in Idle bits leave only the last data level. -/
theorem desyncSilencesTheTransaction : Obligations.DesyncSilencesTheTransaction := by
  intro bs s hbst hscl hr
  exact ⟨_, (runInstrs_bytes bs s).trans (congrArg Host.Outcome.next (deliverAll_bits_of_idle _ hr hscl hbst))⟩

/-- Settles O12: each event is refused with its own result or none. -/
theorem notReadyMeansInert : Obligations.NotReadyMeansInert := by
  intro s hr
  have hinert (e : Event) (he : e ≠ .setup) {i : Instr} (hi : decodeEvent e = .ok i) :
      exec i s = .next (preconditionViolation (falsyResult e) s) := exec_of_not_ready hr he hi
  exact ⟨fun l => hinert (.sclEdge l) nofun rfl, fun l => hinert (.sdaEdge l) nofun rfl,
    fun v => hinert (.regWrite .data v) nofun rfl, fun v => hinert (.regWrite .status v) nofun rfl,
    fun l now => hinert (.toggleEdge l now) nofun rfl, hinert .sampleTick nofun rfl, hinert .teardown nofun rfl,
    fun r => hinert (.setRefreshTiming r) nofun rfl, fun target => hinert (.frameTick target) nofun rfl,
    fun target => hinert (.readAudio target) nofun rfl⟩

/-- Settles O11: torn down, the block is not ready, and `Setup` writes over what `Teardown` wrote. -/
theorem teardownClosesTheGate : Obligations.TeardownClosesTheGate := by
  intro s
  refine ⟨rfl, rfl, fun i hkind hi => ?_, fun target => exec_of_not_ready rfl (e := .frameTick target) nofun rfl, rfl,
    _, rfl, rfl, rfl⟩
  obtain ⟨e, hdecode⟩ := exists_decodeEvent_of_kind_event hkind
  have he : e ≠ .setup := by rintro rfl; cases hdecode; exact hi rfl
  exact ⟨(falsyResult e).toList,
    (exec_of_not_ready rfl he hdecode).trans (congrArg Host.Outcome.next (preconditionViolation_eq ..))⟩

/-- Settles O21: each cause is the case of the statement about its byte or edge that leads to Idle. -/
theorem desyncWritesTheBusStateOnly : Obligations.DesyncWritesTheBusStateOnly := by
  intro s
  refine ⟨desync_eq s, fun a rw ha => ?_, fun b hbst hcmd hdata => ?_, fun b => rfl, fun v hodd => ?_, fun level hbst hr => ?_⟩
  · obtain ⟨haddr, -, -⟩ := addressAndControlBytesSelectThePhase s
    rw [haddr, if_neg (mt BitVec.toNat_inj.mp ha)]; rfl
  · obtain ⟨-, -, hcontrol, -, -⟩ := commitDispatchesOnTheBusState s b
    obtain ⟨-, -, hbad⟩ := hcontrol hbst
    exact hbad hcmd hdata
  · rw [modeParameterSelectsOrDesyncs s v, if_neg (by omega), if_neg (by omega)]; rfl
  · rw [clockEdgeSamplesOrCommits s level hr, if_neg fun h => h.2.2 hbst]

end Sys2Proof.Proofs
